-- ==== Sys2Proof/Word.lean ====
section
/-! DEFINITION. The word types of CLM: bytes of frame memory, 32-bit register words, 16-bit dimensions, and the
interleaved pixel of four bytes (R9 of `00_scope.md`, R39 of `10_state.md`). -/

namespace Sys2Proof

/-- A byte: an unsigned integer in [0,255] (R9). -/
abbrev Byte := BitVec 8

/-- A register word and a frame-memory address, `RW = AW = 32` bits (R6). -/
abbrev Word := BitVec 32

/-- A dimension field, `DIMW = 16` bits (R6, R31). -/
abbrev Dim := BitVec 16

/-- One pixel of the working buffer, the tuple c0, c1, c2, c3 of R39 (luma or R or Y; chroma A or G or U;
chroma B or B or V; unused). -/
structure Pixel where
  c0 : Byte
  c1 : Byte
  c2 : Byte
  c3 : Byte
deriving DecidableEq, Repr, Inhabited

end Sys2Proof
end

