-- ==== Sys2Proof/Config.lean ====
section
/-! DEFINITION. The parameters of R6 of `00_scope.md` as plain data, the platform's map of frame memory, and the
free values: opaque constants with no body, for what the spec leaves to "any value". -/

namespace Sys2Proof

/-- The two kinds of frame-memory access that `MemFault(a, kind)` of R6 distinguishes. -/
inductive AccessKind where
  | read
  | write
deriving DecidableEq, Repr

/-- What the platform says of a range of frame memory: reads fail there, writes fail there (R71), or it is a device
and not plain memory (R68, U12). -/
inductive RegionKind where
  | readsFail
  | writesFail
  | device
deriving DecidableEq, Repr

/-- A range of frame-memory addresses, `base` up to but not including `base + size`. -/
structure Region where
  base : Nat
  size : Nat
  kind : RegionKind
deriving DecidableEq, Repr

/-- The parameters of R6: the capacity of the working buffer in pixels, whether the parallel engine exists, the fixed
third component of variant 3 per branch, and the platform predicate `MemFault` as a finite list of ranges (every
predicate on the 2^32 addresses is such a list; log 5). -/
structure Config where
  wbufPixels : Nat
  hasPar : Bool
  v3b0 : Byte
  v3b1 : Byte
  v3b2 : Byte
  platform : List Region
deriving DecidableEq, Repr

/-- The reference configuration CLM-1 of R6, with no failing address and no device (log 5). -/
def Config.clm1 : Config :=
  { wbufPixels := 8388608, hasPar := true, v3b0 := 255, v3b1 := 255, v3b2 := 255, platform := [] }

/-- FREE VALUE (log 6): the byte at address `a` of a write footprint after the `n`-th event that leaves values open
(R113, R220, U2). -/
opaque Config.freeByte (n a : Nat) : Byte

/-- FREE VALUE (log 7): the number from which GID after a DISPATCH error is taken (R113, U6). -/
opaque Config.freeCount (n : Nat) : Nat

/-- FREE VALUE (log 8): the pixel that an unwritten place `i` of the working buffer holds (R39, R221, U4). -/
opaque Config.freePixel (n i : Nat) : Pixel

/-- FREE VALUE (log 16): the quotient of `x` by zero in the equalisation of R157, which no run reaches (D36). -/
opaque Config.divByZero (x : Rat) : Rat

end Sys2Proof
end

