-- ==== Sys2Proof/Machine/Event.lean ====
section
/-! DEFINITION. What the agents of R7 can do: the two transactions of the register port (R21), the host's own accesses
to frame memory (R222 steps 6 and 9), the hardware reset input (R220), and a turn of the engine; and the names of the
registers of R22. -/

namespace Sys2Proof.Machine

/-- One move of an agent. The list of coming moves is `State.agenda` (log 1). -/
inductive Event where
  /-- The host writes the word `w` at byte offset `off` of the register port (R21). -/
  | regWrite (off : BitVec 8) (w : Word)
  /-- The host reads the word at byte offset `off` of the register port (R21). -/
  | regRead (off : BitVec 8)
  /-- The host writes a byte of frame memory (R222 step 6). -/
  | memWrite (a : Word) (v : Byte)
  /-- The host reads a byte of frame memory (R222 step 9). -/
  | memRead (a : Word)
  /-- The hardware reset input is asserted (R220). -/
  | hardReset
  /-- The engine takes a turn; `k` is the choice of the parallel engine among the work-items not yet run (log 3). -/
  | engine (k : Nat)
deriving DecidableEq, Repr

/-- The registers of R22. -/
inductive RegName where
  | id
  | cmd
  | status
  | ien
  | format
  | mode
  | wgsize
  | width
  | height
  | srcYBase
  | srcYStride
  | srcABase
  | srcAStride
  | srcBBase
  | srcBStride
  | dstYBase
  | dstYStride
  | dstABase
  | dstAStride
  | dstBBase
  | dstBStride
  | dstIBase
  | dstIStride
  | statMin
  | statMax
  | gid
deriving DecidableEq, Repr

end Sys2Proof.Machine
end

