-- ==== Sys2Proof/Syntax.lean ====
section
/-! DEFINITION. The twelve commands of CLM, one constructor per row of `spec/opcode_table.json` (R92 of
`30_encoding.md`). A command takes no operand inside its word: its operands are registers (R90, R95). -/

namespace Sys2Proof

/-- The commands of R92. -/
inductive Instr where
  | nop      -- 0x00 NOP, R114
  | init     -- 0x01 INIT, R115
  | reduce   -- 0x02 REDUCE, R130
  | pack     -- 0x03 PACK, R131
  | map1     -- 0x04 MAP1, R154
  | map2     -- 0x05 MAP2, R160
  | map3     -- 0x06 MAP3, R165
  | unpackp  -- 0x07 UNPACKP, R132
  | unpackn  -- 0x08 UNPACKN, R133
  | emit     -- 0x09 EMIT, R134
  | kern3    -- 0x0A KERN3, R180
  | reset    -- 0x0F RESET, R116
deriving DecidableEq, Repr

end Sys2Proof
end

