-- ==== Sys2Proof/WellFormed.lean ====
section
/-! DEFINITION. Well-formedness of what comes into the machine: commands (no operand, so nothing to check: R90),
register offsets (R21), host moves and configurations (R6). -/

namespace Sys2Proof

/-- A command holds no operand (R90), so each of the twelve is well formed. Written without a wildcard, so that a
command with an operand could not slip past. -/
def Instr.wf (i : Instr) : Bool :=
  match i with
  | .nop | .init | .reduce | .pack | .map1 | .map2 | .map3 | .unpackp | .unpackn | .emit | .kern3 | .reset => true

/-- An offset that exists at the register port: a multiple of 4 (R21); its eight bits keep it in 0x00 to 0xFC. -/
def offsetWf (off : BitVec 8) : Bool :=
  off.toNat % 4 == 0

/-- A host move the spec gives: its register offset exists (R21). -/
def eventWf (e : Machine.Event) : Bool :=
  match e with
  | .regWrite off _ => offsetWf off
  | .regRead off => offsetWf off
  | .memWrite _ _ => true
  | .memRead _ => true
  | .hardReset => true
  | .engine _ => true

/-- A range of the platform's map that lies in the 32-bit address space (R6, R60) and holds an address. -/
def regionWf (r : Region) : Bool :=
  0 < r.size && r.base + r.size ≤ 2 ^ 32

/-- A configuration whose platform ranges all lie in the address space. -/
def configWf (c : Config) : Bool :=
  c.platform.all regionWf

end Sys2Proof
end

