-- ==== Sys2Proof/Decode.lean ====
section
/-! DEFINITION. The decoder of the 32-bit command word (R91, R92, R93 of `30_encoding.md`), total on every word and
rejecting by name, and after it the encoder. -/

namespace Sys2Proof

/-- Why a word is no legal command word (R93): its bits 31:8 are not zero, or its opcode is none of the twelve. -/
inductive DecodeError where
  | reservedBitsSet
  | unassignedOpcode
deriving DecidableEq, Repr

/-- The field RSV of format C, bits 31:8 (R91). -/
def fieldRsv (w : Word) : Nat := w.toNat / 256

/-- The field OPC of format C, bits 7:0 (R91). -/
def fieldOpc (w : Word) : Nat := w.toNat % 256

/-- The opcode map of R92. -/
def decodeOpcode (opc : Nat) : Except DecodeError Instr :=
  match opc with
  | 0x00 => .ok .nop
  | 0x01 => .ok .init
  | 0x02 => .ok .reduce
  | 0x03 => .ok .pack
  | 0x04 => .ok .map1
  | 0x05 => .ok .map2
  | 0x06 => .ok .map3
  | 0x07 => .ok .unpackp
  | 0x08 => .ok .unpackn
  | 0x09 => .ok .emit
  | 0x0A => .ok .kern3
  | 0x0F => .ok .reset
  | _ => .error .unassignedOpcode

/-- The decoder: a legal command word has RSV zero and one of the twelve opcodes (R91); every other word is illegal
(R93). It looks at nothing but the word (R90). -/
def decode (w : Word) : Except DecodeError Instr :=
  if fieldRsv w = 0 then decodeOpcode (fieldOpc w) else .error .reservedBitsSet

/-- A legal command word (R91). -/
def legalWord (w : Word) : Bool :=
  match decode w with
  | .ok _ => true
  | .error _ => false

/-- The command word of each command, the table of R92. -/
def encode (i : Instr) : Word :=
  match i with
  | .nop => 0x00000000#32
  | .init => 0x00000001#32
  | .reduce => 0x00000002#32
  | .pack => 0x00000003#32
  | .map1 => 0x00000004#32
  | .map2 => 0x00000005#32
  | .map3 => 0x00000006#32
  | .unpackp => 0x00000007#32
  | .unpackn => 0x00000008#32
  | .emit => 0x00000009#32
  | .kern3 => 0x0000000A#32
  | .reset => 0x0000000F#32

/-- The 32-bit command word that a table row of `nbits` bits with the bits `w` stands for: every bit above `nbits` is
zero. A command has no memory image (R90), so no byte order arises. -/
def tableWord (nbits w : Nat) : Word := BitVec.ofNat 32 (w % 2 ^ nbits)

/-- The command the decoder reads from the bits of an opcode-table row. -/
def decodeTableWord (nbits w : Nat) : Option Instr :=
  match decode (tableWord nbits w) with
  | .ok i => some i
  | .error _ => none

end Sys2Proof
end

