-- ==== Sys2Proof/Machine/State.lean ====
section
/-! DEFINITION. The state of CLM (R20 of `10_state.md`), the frame memory and the parameters beside it, the model's own
fields, the reasons a step can stop, and the state after reset (R45). -/

namespace Sys2Proof.Machine

/-- A base and a stride register of one plane (R32, R33). -/
structure PlaneRegs where
  base : Word
  stride : Word
deriving DecidableEq, Repr

/-- The registers the host writes and the engine only reads: IEN (R27), FORMAT (R28), MODE (R29), WGSIZE (R30), WIDTH and
HEIGHT (R31), and the seven base and stride pairs (R32, R33). -/
structure Regs where
  doneIe : Bool
  errIe : Bool
  fmt : Byte
  /-- MODE.ENGINE: false scalar, true parallel (R29). -/
  engine : Bool
  evenChk : Bool
  wgsize : Word
  width : Dim
  height : Dim
  srcY : PlaneRegs
  srcA : PlaneRegs
  srcB : PlaneRegs
  dstY : PlaneRegs
  dstA : PlaneRegs
  dstB : PlaneRegs
  dstI : PlaneRegs
deriving DecidableEq, Repr

/-- The eight errors of R190, codes 1 to 8 in this order. -/
inductive ErrorKind where
  | unsupportedFormat
  | deviceUnavailable
  | dispatch
  | illegalCmd
  | notReady
  | geometry
  | stride
  | sequence
deriving DecidableEq, Repr

/-- The flags of STATUS that are stored (R25). BUSY is `State.running`, SMV is `State.smooth`; `err` is the field ERR. -/
structure Status where
  done : Bool
  ready : Bool
  wbv : Bool
  stv : Bool
  bwr : Bool
  err : Option ErrorKind
deriving DecidableEq, Repr

/-- The frame memory: address and byte pairs in canonical form (`Memory.wf`). -/
abbrev Memory := List Host.Cell

/-- The whole machine: CLM (R20), the frame memory and parameters it is built with (R6), and the model's own fields. -/
structure State where
  /-- The parameters of R6; no step changes them (log 5). -/
  cfg : Config
  /-- The host-written registers. -/
  regs : Regs
  /-- The flags and the error code of STATUS (R25). -/
  status : Status
  /-- BUSY, and the command that runs (R25, R37; log 23). -/
  running : Option Instr
  /-- GID, the work-item counter (R35). -/
  gid : Word
  /-- STAT_MIN (R34). -/
  statMin : Byte
  /-- STAT_MAX (R34). -/
  statMax : Byte
  /-- SMOOTH with its flag SMV: none is "unset" (R40; log 9). -/
  smooth : Option Rat
  /-- WBUF: the pixels written since its contents were last unspecified (R39; log 8). -/
  wbuf : List (Nat × Pixel)
  /-- MEM (R60). -/
  mem : Memory
  /-- Model's own: the work-items of the running command not yet run (R112; log 3). -/
  todo : List Nat
  /-- Model's own: the parallel engine's choice in this turn (log 3). -/
  pick : Nat
  /-- Model's own: the coming moves of host and engine (log 1). -/
  agenda : List Event
  /-- Model's own: the word the last RegRead returned (log 1). -/
  rdata : Option Word
  /-- Model's own: the byte the host's last read of frame memory returned (log 1). -/
  mdata : Option Byte
  /-- Model's own: how many events have left values open; the free values of Config are applied to it (log 19). -/
  freeCtr : Nat
deriving DecidableEq, Repr

/-- Why a step stops with a fault. -/
inductive Fault where
  /-- Raised by a register transaction at an offset that is no multiple of 4, which does not exist at the port (R21).
  Safe: the hardware has no such transaction, so no run of it is left out (log 13). -/
  | noSuchOffset
deriving DecidableEq, Repr

/-- Why a step is refused: there is no meaning to give. -/
inductive Refusal where
  /-- Raised by an arm of `exec` whose instruction has no meaning yet (none in this model). Safe. -/
  | notModelled (mnemonic : String)
  /-- Raised at the launch of a frame command whose regions overlap or wrap onto themselves: the spec gives the command
  no meaning (R73, U3; log 10). Safe. -/
  | overlappingFootprint
  /-- Raised at the launch of a frame command whose footprint lies on a device, outside the spec (R68, U12; log 11). Safe. -/
  | deviceFootprint
  /-- Raised by a host access to the running command's footprint, a move the host does not have (R76, U11; log 12). Safe. -/
  | hostTouchesFootprint
deriving DecidableEq, Repr

/-- A plane's registers after reset (R22). -/
def PlaneRegs.reset : PlaneRegs := { base := 0, stride := 0 }

/-- The host-written registers after reset (R22, R45). -/
def Regs.reset : Regs :=
  { doneIe := false, errIe := false, fmt := 0, engine := false, evenChk := false, wgsize := 512
    width := 0, height := 0
    srcY := PlaneRegs.reset, srcA := PlaneRegs.reset, srcB := PlaneRegs.reset
    dstY := PlaneRegs.reset, dstA := PlaneRegs.reset, dstB := PlaneRegs.reset, dstI := PlaneRegs.reset }

/-- STATUS after reset: every flag 0 and no error (R45). -/
def Status.reset : Status :=
  { done := false, ready := false, wbv := false, stv := false, bwr := false, err := none }

/-- The state after reset (R45, R220), in the reference configuration CLM-1 (R6), with frame memory and the model's own
fields at the values of logs 4, 5 and 19. -/
def State.reset : State :=
  { cfg := Config.clm1, regs := Regs.reset, status := Status.reset, running := none, gid := 0
    statMin := 255, statMax := 0, smooth := none, wbuf := [], mem := []
    todo := [], pick := 0, agenda := [], rdata := none, mdata := none, freeCtr := 0 }

end Sys2Proof.Machine
end

