-- ==== Sys2Proof/Machine/Flags.lean ====
section
/-! DEFINITION. The flags of STATUS (R25 of `10_state.md`), the codes of ERR (R190 of `60_exceptions.md`), the STATUS
word, its write-one-to-clear bits (R26), and the interrupt output (R43). -/

namespace Sys2Proof.Machine

/-- The code of an error in STATUS.ERR (R190). -/
def ErrorKind.code (e : ErrorKind) : Byte :=
  match e with
  | .unsupportedFormat => 1
  | .deviceUnavailable => 2
  | .dispatch => 3
  | .illegalCmd => 4
  | .notReady => 5
  | .geometry => 6
  | .stride => 7
  | .sequence => 8

/-- STATUS.BUSY: a frame command is running (R25). -/
def State.busy (s : State) : Bool := s.running.isSome

/-- STATUS.SMV: SMOOTH holds the previous frame's blend portion (R25, R40). -/
def State.smv (s : State) : Bool := s.smooth.isSome

/-- STATUS.ERR as its 8-bit field, 0 when no error is latched (R25, R190). -/
def State.errByte (s : State) : Byte :=
  match s.status.err with
  | none => 0
  | some e => e.code

/-- The word a read of STATUS returns (R25): ERR in 15:8, BWR 6, SMV 5, STV 4, WBV 3, READY 2, DONE 1, BUSY 0, all
other bits 0. -/
def State.statusWord (s : State) : Word :=
  0#16 ++ s.errByte ++ 0#1 ++ BitVec.ofBool s.status.bwr ++ BitVec.ofBool s.smv ++ BitVec.ofBool s.status.stv
    ++ BitVec.ofBool s.status.wbv ++ BitVec.ofBool s.status.ready ++ BitVec.ofBool s.status.done
    ++ BitVec.ofBool s.busy

/-- The interrupt output, a level and a function of state (R43, R200). -/
def State.irq (s : State) : Bool :=
  (s.regs.doneIe && s.status.done) || (s.regs.errIe && s.status.err.isSome)

/-- An update of the stored flags of STATUS, everything else kept. -/
def onStatus (f : Status → Status) (s : State) : State := { s with status := f s.status }

/-- `STATUS.DONE <- b`. -/
abbrev setDone (b : Bool) : State → State := onStatus fun x => { x with done := b }

/-- `STATUS.READY <- b`. -/
abbrev setReady (b : Bool) : State → State := onStatus fun x => { x with ready := b }

/-- `STATUS.WBV <- b`. -/
abbrev setWbv (b : Bool) : State → State := onStatus fun x => { x with wbv := b }

/-- `STATUS.STV <- b`. -/
abbrev setStv (b : Bool) : State → State := onStatus fun x => { x with stv := b }

/-- `STATUS.BWR <- b`. -/
abbrev setBwr (b : Bool) : State → State := onStatus fun x => { x with bwr := b }

/-- `STATUS.ERR <- e`. -/
abbrev setErr (e : Option ErrorKind) : State → State := onStatus fun x => { x with err := e }

/-- A register write dropped because BUSY is 1 (R37, R228). -/
abbrev dropWrite : State → State := setBwr true

/-- Acknowledging an error, the only "return" from one (R203): ERR becomes 0 and nothing is restored (R26). -/
abbrev ackError : State → State := setErr none

/-- A write of the word `w` to STATUS (R26): bit 1 clears DONE, bit 6 clears BWR, bit 8 clears ERR; every other bit of
`w` is ignored. -/
def writeStatus (w : Word) (s : State) : State :=
  let clearDone := if w.getLsbD 1 then setDone false else id
  let clearBwr := if w.getLsbD 6 then setBwr false else id
  let clearErr := if w.getLsbD 8 then ackError else id
  clearErr (clearBwr (clearDone s))

end Sys2Proof.Machine
end

