-- ==== Sys2Proof/Machine/Mapper.lean ====
section
/-! DEFINITION. The colour mapper (`42_color_map.md`): the tone curve, the palettes of the three variants, the blend
portion and the equalisation, over exact rationals (R150), and the one conversion to a byte (R11). -/

namespace Sys2Proof.Machine

/-- `clamp(x, lo, hi)` of R11. -/
def clamp {α : Type} [LT α] [DecidableLT α] (x lo hi : α) : α :=
  if x < lo then lo else if hi < x then hi else x

/-- `trunc(x)` of R11: the integer part toward zero. -/
def trunc (x : Rat) : Int := Int.tdiv x.num x.den

/-- `to_byte(x) = clamp(trunc(x), 0, 255)` (R11, R150). -/
def toByte (x : Rat) : Byte := BitVec.ofInt 8 (clamp (trunc x) 0 255)

/-- A byte as the rational it denotes (R9). -/
def byteQ (y : Byte) : Rat := (y.toNat : Rat)

/-- The tone curve `y' = clamp(y/255*200 + 55, 0, 255)` of R151. -/
def tone (y : Byte) : Rat := clamp (byteQ y / 255 * 200 + 55) 0 255

/-- The branch index `k1(t)` of R152: boundaries 70 and 85, half-open on the lower bound. -/
def k1 (t : Rat) : Fin 3 := if t < 70 then 0 else if t < 85 then 1 else 2

/-- `R1(t)` of R152. -/
def r1 (t : Rat) : Rat :=
  match k1 t with
  | 0 => 0
  | 1 => (t - 70) * 4
  | 2 => (t - 85) / 170 * 195 + 60

/-- `G1(t)` of R152. -/
def g1 (t : Rat) : Rat :=
  match k1 t with
  | 0 => 90
  | 1 => (t - 70) * (13 / 5) + 90
  | 2 => (t - 85) / 170 * 126 + 129

/-- Variant 1 of a byte, (R, G, B) (R153). -/
def v1 (y : Byte) : Byte × Byte × Byte := (toByte (r1 (tone y)), toByte (g1 (tone y)), 255)

/-- `mix_new(mn, mx)`, the blend portion of a frame (R155). -/
def mixNew (mn mx : Byte) : Rat := (1 - (byteQ mx - byteQ mn) / 255) ^ 4 + 1

/-- The smoothed blend portion (R156): with a previous portion, a fifth of the new and four fifths of the old; on the
first frame the new one. -/
def smoothMix (prev : Option Rat) (new : Rat) : Rat :=
  match prev with
  | some p => 1 / 5 * new + 4 / 5 * p
  | none => new

/-- Division as R157 writes it: the quotient, and by zero a free value (log 16), which no run reaches (D36, R161). -/
def divQ (x d : Rat) : Rat := if d = 0 then Config.divByZero x else x / d

/-- The equalisation `ye` of one pixel's luminance (R157): a rational, not truncated. -/
def equalise (mix : Rat) (mn mx y : Byte) : Rat :=
  if 0 < mix ∧ mix ≤ 1 then
    byteQ y * (1 - mix) + divQ (byteQ y - byteQ mn) (byteQ mx - byteQ mn) * 255 * mix
  else byteQ y

/-- The four-band curve `CURVE2(u)` of R158. -/
def curve2 (u : Rat) : Rat × Rat × Rat :=
  if u < 10 then (0, 90, 255)
  else if u < 30 then ((u - 10) * 3, (u - 10) * 2 + 90, 255)
  else if u < 230 then ((u - 30) / 200 * 195 + 60, (u - 30) / 200 * 125 + 130, 255)
  else (255, 255, 255)

/-- `to_byte` of the three components of CURVE2. -/
def curve2Bytes (u : Rat) : Byte × Byte × Byte :=
  (toByte (curve2 u).1, toByte (curve2 u).2.1, toByte (curve2 u).2.2)

/-- Variant 2, `V2(y; mix, mn, mx)` (R159). -/
def v2 (mix : Rat) (mn mx y : Byte) : Byte × Byte × Byte := curve2Bytes (equalise mix mn mx y)

/-- `V3_B[k]`, the parameter of R6 (R162, D8). -/
def v3b (c : Config) (k : Fin 3) : Byte :=
  match k with
  | 0 => c.v3b0
  | 1 => c.v3b1
  | 2 => c.v3b2

/-- The intermediate triple (R3, G3, B3) of R162, not truncated. -/
def triple3 (c : Config) (y : Byte) : Rat × Rat × Rat :=
  (r1 (tone y), tone y, byteQ (v3b c (k1 (tone y))))

/-- The three dot products Y3, U3, V3c of R163. -/
def dot3 (p : Rat × Rat × Rat) : Rat × Rat × Rat :=
  (299 / 1000 * p.1 + 587 / 1000 * p.2.1 + 114 / 1000 * p.2.2,
   -(147 / 1000) * p.1 - 289 / 1000 * p.2.1 + 436 / 1000 * p.2.2 + 128,
   615 / 1000 * p.1 - 515 / 1000 * p.2.1 - 100 / 1000 * p.2.2 + 128)

/-- Variant 3 of a byte, (Y, U, V) (R164). -/
def v3 (c : Config) (y : Byte) : Byte × Byte × Byte :=
  (toByte (dot3 (triple3 c y)).1, toByte (dot3 (triple3 c y)).2.1, toByte (dot3 (triple3 c y)).2.2)

end Sys2Proof.Machine
end

