-- ==== Sys2Proof/Machine/Memory.lean ====
section
/-! DEFINITION. Sparse storage keyed by address or index, and the frame memory over it: read, write, and the one
canonical form. -/

namespace Sys2Proof.Machine

/-- The value stored under key `a`, if any. -/
def sparseFind {α : Type} (l : List (Nat × α)) (a : Nat) : Option α :=
  match l with
  | [] => none
  | (k, v) :: r => if k = a then some v else sparseFind r a

/-- Store `v` under key `a`, keeping rising keys rising. -/
def sparseInsert {α : Type} (l : List (Nat × α)) (a : Nat) (v : α) : List (Nat × α) :=
  match l with
  | [] => [(a, v)]
  | (k, w) :: r =>
    if a < k then (a, v) :: (k, w) :: r
    else if a = k then (a, v) :: r
    else (k, w) :: sparseInsert r a v

/-- Remove what is stored under key `a`. -/
def sparseErase {α : Type} (l : List (Nat × α)) (a : Nat) : List (Nat × α) :=
  match l with
  | [] => []
  | (k, w) :: r => if k = a then sparseErase r a else (k, w) :: sparseErase r a

/-- Keys strictly rising, the first above `lo` where `lo` is given. -/
def sparseRising {α : Type} (lo : Option Nat) (l : List (Nat × α)) : Bool :=
  match l with
  | [] => true
  | (k, _) :: r => (match lo with | none => true | some b => decide (b < k)) && sparseRising (some k) r

/-- What an address that the memory does not list reads as. DESIGN CHOICE (log 4): `MEM` is a total function (R80) whose
contents the platform supplies (R6); the model takes zero. -/
def memDefault : Byte := 0

/-- The byte of frame memory at address `a` (R12, R80). -/
def Memory.read (m : Memory) (a : Nat) : Byte :=
  (sparseFind m a).getD memDefault

/-- Frame memory with the byte `v` at address `a` (R12), in canonical form. -/
def Memory.write (m : Memory) (a : Nat) (v : Byte) : Memory :=
  if v = memDefault then sparseErase m a else sparseInsert m a v

/-- The canonical form: addresses strictly rising and inside the 32-bit space (R60), no entry equal to the default. -/
def Memory.wf (m : Memory) : Bool :=
  sparseRising none m && m.all (fun c => decide (c.1 < 2 ^ 32) && decide (c.2 ≠ memDefault))

end Sys2Proof.Machine
end

