-- ==== Sys2Proof/Machine/Operands.lean ====
section
/-! DEFINITION. The implicit operands of the commands (R95 of `30_encoding.md`): the derived geometry (R42), the
work-item's coordinates (R112), plane and interleaved addresses (R62, R65), footprints (R72), the stride pairs (R111)
and the launch conditions (R73). -/

namespace Sys2Proof.Machine

/-- `ceil2(n) = (n + 1) div 2` (R10). -/
def ceil2 (n : Nat) : Nat := (n + 1) / 2

/-- `W`, the number of samples in a luma row (R31, R42). -/
def State.w (s : State) : Nat := s.regs.width.toNat

/-- `H`, the number of luma rows (R31, R42). -/
def State.h (s : State) : Nat := s.regs.height.toNat

/-- `N = W*H`, the number of work-items (R42, R112). -/
def State.n (s : State) : Nat := s.w * s.h

/-- `CW = ceil2(W)` (R42). -/
def State.cw (s : State) : Nat := ceil2 s.w

/-- `CH = ceil2(H)` (R42). -/
def State.ch (s : State) : Nat := ceil2 s.h

/-- The coordinates every work-item starts from (R112). -/
structure WorkItem where
  gid : Nat
  row : Nat
  col : Nat
  crow : Nat
  ccol : Nat
  rep : Bool
deriving DecidableEq, Repr

/-- The derivation of R112 from the flat index and the width. -/
def workItem (width gid : Nat) : WorkItem :=
  let row := gid / width
  let col := gid - width * row
  { gid := gid, row := row, col := col, crow := row / 2, ccol := col / 2
    rep := row % 2 == 0 && col % 2 == 0 }

/-- `addr(P, r, c)` of R62, reduced modulo 2^32 (R69). -/
def planeAddr (p : PlaneRegs) (r c : Nat) : Nat :=
  (p.base.toNat + r * p.stride.toNat + c) % 2 ^ 32

/-- `addrI(r, c, k)` of R65, reduced modulo 2^32 (R69). -/
def pixelAddr (p : PlaneRegs) (r c k : Nat) : Nat :=
  (p.base.toNat + r * p.stride.toNat + 4 * c + k) % 2 ^ 32

/-- `region(P)` of R72 for a plane of `rows` by `cols` samples, row by row. -/
def planeRegion (p : PlaneRegs) (rows cols : Nat) : List Nat :=
  (List.range rows).flatMap fun r => (List.range cols).map fun c => planeAddr p r c

/-- `regionI` of R72, row by row, pixel by pixel, byte by byte. -/
def pixelRegion (p : PlaneRegs) (rows cols : Nat) : List Nat :=
  (List.range rows).flatMap fun r =>
    (List.range cols).flatMap fun c => (List.range 4).map fun k => pixelAddr p r c k

/-- A frame command: one that runs work-items (R111). -/
def isFrame (i : Instr) : Bool :=
  match i with
  | .nop => false
  | .init => false
  | .reset => false
  | .reduce => true
  | .pack => true
  | .map1 => true
  | .map2 => true
  | .map3 => true
  | .unpackp => true
  | .unpackn => true
  | .emit => true
  | .kern3 => true

/-- The commands that read WBUF and so need WBV (R111 step 3, R198). -/
def needsWbv (i : Instr) : Bool :=
  match i with
  | .map1 => true
  | .map2 => true
  | .map3 => true
  | .unpackp => true
  | .unpackn => true
  | .emit => true
  | .nop => false
  | .init => false
  | .reduce => false
  | .pack => false
  | .kern3 => false
  | .reset => false

/-- The command that reads the statistics and so needs STV (R111 step 3, R198). -/
def needsStv (i : Instr) : Bool :=
  match i with
  | .map2 => true
  | .nop => false
  | .init => false
  | .reduce => false
  | .pack => false
  | .map1 => false
  | .map3 => false
  | .unpackp => false
  | .unpackn => false
  | .emit => false
  | .kern3 => false
  | .reset => false

/-- The pairs of stride register and needed bytes of R111 step 4. -/
def strideNeeds (i : Instr) (s : State) : List (Word × Nat) :=
  match i with
  | .reduce => [(s.regs.srcY.stride, s.w)]
  | .pack => [(s.regs.srcY.stride, s.w), (s.regs.srcA.stride, s.cw), (s.regs.srcB.stride, s.cw)]
  | .unpackp => [(s.regs.dstY.stride, s.w), (s.regs.dstA.stride, s.cw), (s.regs.dstB.stride, s.cw)]
  | .unpackn => [(s.regs.dstY.stride, s.w), (s.regs.dstA.stride, s.cw), (s.regs.dstB.stride, s.cw)]
  | .emit => [(s.regs.dstI.stride, 4 * s.w)]
  | .kern3 => [(s.regs.srcY.stride, s.w), (s.regs.dstY.stride, s.w), (s.regs.dstA.stride, s.cw),
      (s.regs.dstB.stride, s.cw)]
  | .map1 => []
  | .map2 => []
  | .map3 => []
  | .nop => []
  | .init => []
  | .reset => []

/-- Every stride the command uses is at least its row's byte count (R33, R111 step 4). -/
def stridesOk (i : Instr) (s : State) : Bool :=
  (strideNeeds i s).all fun p => decide (p.2 ≤ p.1.toNat)

/-- The three destination planes of UNPACKP, UNPACKN and KERN3 (R72). -/
def dstPlanes (s : State) : List (List Nat) :=
  [planeRegion s.regs.dstY s.h s.w, planeRegion s.regs.dstA s.ch s.cw, planeRegion s.regs.dstB s.ch s.cw]

/-- The regions a command reads (R61, R72). -/
def readRegions (i : Instr) (s : State) : List (List Nat) :=
  match i with
  | .reduce => [planeRegion s.regs.srcY s.h s.w]
  | .pack => [planeRegion s.regs.srcY s.h s.w, planeRegion s.regs.srcA s.ch s.cw, planeRegion s.regs.srcB s.ch s.cw]
  | .kern3 => [planeRegion s.regs.srcY s.h s.w]
  | .nop => []
  | .init => []
  | .map1 => []
  | .map2 => []
  | .map3 => []
  | .unpackp => []
  | .unpackn => []
  | .emit => []
  | .reset => []

/-- The regions a command writes (R61, R72). -/
def writeRegions (i : Instr) (s : State) : List (List Nat) :=
  match i with
  | .unpackp => dstPlanes s
  | .unpackn => dstPlanes s
  | .kern3 => dstPlanes s
  | .emit => [pixelRegion s.regs.dstI s.h s.w]
  | .nop => []
  | .init => []
  | .reduce => []
  | .pack => []
  | .map1 => []
  | .map2 => []
  | .map3 => []
  | .reset => []

/-- The read footprint of R72, as the list of its addresses. -/
def readFootprint (i : Instr) (s : State) : List Nat := (readRegions i s).flatten

/-- The write footprint of R72, as the list of its addresses. -/
def writeFootprint (i : Instr) (s : State) : List Nat := (writeRegions i s).flatten

/-- The no-overlap requirement of R73: the regions of the write footprint are pairwise disjoint and each is injective
(together: the footprint lists no address twice), the write footprint is disjoint from the read footprint, and each
region read is injective. -/
def noOverlap (i : Instr) (s : State) : Bool :=
  decide (writeFootprint i s).Nodup
    && (readRegions i s).all (fun r => decide r.Nodup)
    && (writeFootprint i s).all (fun a => !(readFootprint i s).contains a)

/-- Address `a` lies in the platform range `r`. -/
def regionHas (r : Region) (a : Nat) : Bool := decide (r.base ≤ a) && decide (a < r.base + r.size)

/-- `MemFault(a, k)` of R6 (R71), read off the platform's map. -/
def memFault (c : Config) (a : Nat) (k : AccessKind) : Bool :=
  c.platform.any fun r =>
    regionHas r a &&
      match r.kind, k with
      | .readsFail, .read => true
      | .writesFail, .write => true
      | _, _ => false

/-- Address `a` is a device and not plain memory (R68, U12). -/
def isDevice (c : Config) (a : Nat) : Bool :=
  c.platform.any fun r => regionHas r a && r.kind == .device

/-- The footprints of a command are plain memory (R68, duty H9 of R226). -/
def plainFootprint (i : Instr) (s : State) : Bool :=
  (readFootprint i s ++ writeFootprint i s).all fun a => !isDevice s.cfg a

end Sys2Proof.Machine
end

