-- ==== Sys2Proof/Machine/Ops.lean ====
section
/-! DEFINITION. The shared operations: byte accesses (R12, R71), the working buffer (R39), raising an error (R202), the
prologue of a frame command (R111), the work-item sequencer (R112), the epilogue and the fault path (R113), and the
reset state (R45). -/

namespace Sys2Proof.Machine

/-- The three outcomes of a step of this machine. -/
abbrev Result := Host.Outcome State Fault Refusal

/-- `MemRead(a, 1)` of R12: none when the access fails (R71). -/
def memRead (s : State) (a : Nat) : Option Byte :=
  if memFault s.cfg a .read then none else some (s.mem.read a)

/-- `MemWrite(a, 1, v)` of R12: none when the access fails, and then frame memory is not updated. -/
def memWrite (a : Nat) (v : Byte) (s : State) : Option State :=
  if memFault s.cfg a .write then none else some { s with mem := s.mem.write a v }

/-- `WBUF[i]` (R12, R39): the pixel last written there, or a free value where nothing has been written (U4; log 8). -/
def wbufRead (s : State) (i : Nat) : Pixel :=
  (sparseFind s.wbuf i).getD (Config.freePixel s.freeCtr i)

/-- `WBUF[i] <- p` (R12, R39). -/
def wbufWrite (i : Nat) (p : Pixel) (s : State) : State := { s with wbuf := sparseInsert s.wbuf i p }

/-- The contents of WBUF become unspecified (R39, R115, R113): nothing is listed and the free values change (log 8). -/
def wbufForget (s : State) : State := { s with wbuf := [], freeCtr := s.freeCtr + 1 }

/-- Free bytes at every address of a list, the others kept (R113, U2; log 6). -/
def scrambleMem (n : Nat) (as : List Nat) (m : Memory) : Memory :=
  as.foldl (fun m a => m.write a (Config.freeByte n a)) m

/-- The write footprint of the command `i` becomes unspecified (R113, R220, U2). -/
def scrambleFootprint (i : Instr) (s : State) : State :=
  { s with mem := scrambleMem s.freeCtr (writeFootprint i s) s.mem, freeCtr := s.freeCtr + 1 }

/-- TAKING AN ERROR, the one entry `raise Error(code)` of R202: ERR takes the code if no error is latched, DONE is 0,
BUSY is or becomes 0; nothing is saved and control goes nowhere. `ackError` of `Flags.lean` is the return (R203). -/
def raiseError (e : ErrorKind) (s : State) : State :=
  { s with status := { s.status with err := s.status.err.or (some e), done := false }, running := none }

/-- Every register, flag and internal datum at its reset value (R45, R116, R220). Frame memory and the parameters stay,
as do the coming moves and the replies already given to the host; the contents of WBUF become unspecified. -/
def resetState (s : State) : State :=
  { State.reset with
    cfg := s.cfg, mem := s.mem, agenda := s.agenda, pick := s.pick, rdata := s.rdata, mdata := s.mdata
    freeCtr := s.freeCtr + 1 }

/-- The hardware reset (R220): as RESET, and it also ends a running command, whose write footprint is then unspecified. -/
def hardReset (s : State) : State :=
  match s.running with
  | none => resetState s
  | some i => resetState (scrambleFootprint i s)

/-- REDUCE runs in increasing gid whatever MODE.ENGINE is, and so does every command of the scalar engine (R112). -/
def inOrder (i : Instr) (s : State) : Bool := !s.regs.engine || i == .reduce

/-- The work-item that runs in this turn (R112): the first not yet run, or, with the parallel engine, the one the turn's
choice selects among those not yet run (log 3). None when all have run. -/
def nextGid (i : Instr) (s : State) : Option Nat :=
  if inOrder i s then s.todo.head? else s.todo[s.pick % s.todo.length]?

/-- The command `i` is accepted (R111 step 5): BUSY, GID 0 and all N work-items to run, with the command's own settings
at acceptance; an overlapping or device footprint has no meaning (R73, R68). -/
def acceptFrame (i : Instr) (setup : State → State) (s : State) : Result :=
  if noOverlap i s = false then .refused .overlappingFootprint
  else if plainFootprint i s = false then .refused .deviceFootprint
  else .next (setup { s with running := some i, gid := 0, todo := List.range s.n })

/-- The prologue of a frame command (R111), after `DONE <- 0` of its step 1: NOT_READY, SEQUENCE (WBV before STV),
STRIDE, acceptance, in this order (R201). -/
def prologue (i : Instr) (setup : State → State) (s : State) : Result :=
  if s.status.ready = false then .next (raiseError .notReady s)
  else if needsWbv i && !s.status.wbv then .next (raiseError .sequence s)
  else if needsStv i && !s.status.stv then .next (raiseError .sequence s)
  else if stridesOk i s = false then .next (raiseError .stride s)
  else acceptFrame i setup s

/-- A completed work-item: it leaves the list of those to run and GID counts it (R112, R35). -/
def itemDone (g : Nat) (s : State) : State := { s with todo := s.todo.erase g, gid := s.gid + 1 }

/-- The end of a command without error (R113), after its final action: `BUSY <- 0; DONE <- 1` in one step. -/
def complete (s : State) : State := setDone true { s with running := none }

/-- GID after a DISPATCH error: a free value in [0, N] (R113, U6; log 7). -/
def freeGid (s : State) : Word := BitVec.ofNat 32 (Config.freeCount s.freeCtr % (s.n + 1))

/-- The fault path (R113, R193): no work-item is left to run, the write footprint becomes unspecified, GID takes a free value, the command's own
residue `onFault` follows (PACK: WBV and WBUF; REDUCE: STV), and DISPATCH is raised with BUSY 0. -/
def faultPath (i : Instr) (onFault : State → State) (s : State) : State :=
  raiseError .dispatch (onFault (scrambleFootprint i { s with gid := freeGid s, todo := [] }))

/-- What a frame command adds to the shared sequencer: its settings at acceptance, the body of one work-item (none when
an access fails), its final action, and its residue on the fault path. -/
structure FrameCmd where
  setup : State → State
  body : WorkItem → State → Option State
  finish : State → State
  onFault : State → State

/-- One turn of the engine on the running command (R112, R113): the next work-item, its fault path, or, when all N have
run, the final action and the epilogue. -/
def engineTurn (i : Instr) (f : FrameCmd) (s : State) : State :=
  match nextGid i s with
  | none => complete (f.finish s)
  | some g =>
    match f.body (workItem s.w g) s with
    | some t => itemDone g t
    | none => faultPath i f.onFault s

/-- The meaning of a frame command, shared. While it is the running command, this is one turn of the engine (R112,
R113). While another runs, it is a command word written during BUSY, dropped (R110 step 1). Otherwise it is its issue:
ignored while an error is latched (R110 step 2), else the prologue (R111) after `DONE <- 0`. -/
def frameCommand (i : Instr) (f : FrameCmd) (s : State) : Result :=
  match s.running with
  | some j => if j = i then .next (engineTurn i f s) else .next (dropWrite s)
  | none => if s.status.err.isSome then .next s else prologue i f.setup (setDone false s)

end Sys2Proof.Machine
end

