-- ==== Sys2Proof/Machine/ColorMap.lean ====
section
/-! DEFINITION. The commands MAP1, MAP2, MAP3 over the working buffer (`42_color_map.md`, R154, R160, R165). They touch
no frame memory, so they never take the fault path (R113). -/

namespace Sys2Proof.Machine

/-- A mapped pixel: the three outputs in components 0 to 2, component 3 kept (R154, R160, R165, D30). -/
def mappedPixel (o : Byte × Byte × Byte) (p : Pixel) : Pixel := { c0 := o.1, c1 := o.2.1, c2 := o.2.2, c3 := p.c3 }

/-- The work-item of a MAP command: the function `f` of component 0 replaces components 0 to 2 of its own pixel. -/
def mapItem (f : Byte → Byte × Byte × Byte) (x : WorkItem) (s : State) : Option State :=
  some (wbufWrite x.gid (mappedPixel (f (wbufRead s x.gid).c0) (wbufRead s x.gid)) s)

/-- MAP1 (R154): variant 1. -/
def execMap1 (s : State) : Result :=
  frameCommand .map1 { setup := id, body := mapItem v1, finish := id, onFault := id } s

/-- MAP2 at acceptance (R160): the frame's blend portion, smoothed, becomes SMOOTH, and SMV is set (R155, R156). -/
def map2Setup (s : State) : State := { s with smooth := some (smoothMix s.smooth (mixNew s.statMin s.statMax)) }

/-- The blend portion `mix` of the running MAP2: the value its acceptance stored in SMOOTH (R156, R160). -/
def frameMix (s : State) : Rat := s.smooth.getD (mixNew s.statMin s.statMax)

/-- The work-item of MAP2 (R160). -/
def map2Item (x : WorkItem) (s : State) : Option State :=
  mapItem (v2 (frameMix s) s.statMin s.statMax) x s

/-- MAP2 (R160): SMOOTH once per command, before any work-item; the statistics are consumed at the end. -/
def execMap2 (s : State) : Result :=
  frameCommand .map2 { setup := map2Setup, body := map2Item, finish := setStv false, onFault := id } s

/-- The work-item of MAP3 (R165). -/
def map3Item (x : WorkItem) (s : State) : Option State := mapItem (v3 s.cfg) x s

/-- MAP3 (R165): variant 3. -/
def execMap3 (s : State) : Result :=
  frameCommand .map3 { setup := id, body := map3Item, finish := id, onFault := id } s

end Sys2Proof.Machine
end

