-- ==== Sys2Proof/Machine/Control.lean ====
section
/-! DEFINITION. The commands that run no work-item: NOP, INIT, RESET (`40_control.md`, R114 to R116), and the raising of
ILLEGAL_CMD (R194). -/

namespace Sys2Proof.Machine

/-- The meaning of a command that completes in the step of its issue (R225), shared: written during BUSY it is dropped
(R110 step 1), else it acts. -/
def controlCommand (act : State → State) (s : State) : Result :=
  match s.running with
  | some _ => .next (dropWrite s)
  | none => .next (act s)

/-- NOP (R114): DONE; ignored while an error is latched (R110 step 2). -/
def execNop (s : State) : Result :=
  controlCommand (fun s => if s.status.err.isSome then s else setDone true s) s

/-- What INIT clears before its checks (R115): DONE, ERR, READY, WBV, STV, SMV with SMOOTH, the statistics and GID; the
contents of WBUF become unspecified. -/
def initClear (s : State) : State :=
  wbufForget
    { s with
      status := { s.status with done := false, err := none, ready := false, wbv := false, stv := false }
      smooth := none, statMin := 255, statMax := 0, gid := 0 }

/-- The geometry INIT accepts (R115, R196): both dimensions positive, at most WBUF_PIXELS pixels, and even dimensions
where MODE.EVENCHK asks for them. -/
def geometryOk (s : State) : Bool :=
  s.w != 0 && s.h != 0 && decide (s.n ≤ s.cfg.wbufPixels)
    && !(s.regs.evenChk && (s.w % 2 == 1 || s.h % 2 == 1))

/-- INIT's checks in their order, and success (R115): UNSUPPORTED_FORMAT, DEVICE_UNAVAILABLE, GEOMETRY, else READY and
DONE. -/
def initCheck (s : State) : State :=
  if s.regs.fmt ≠ 0 then raiseError .unsupportedFormat s
  else if s.regs.engine && !s.cfg.hasPar then raiseError .deviceUnavailable s
  else if geometryOk s = false then raiseError .geometry s
  else setDone true (setReady true s)

/-- INIT (R115): construction, accepted also while an error is latched (R110 step 2). -/
def execInit (s : State) : Result := controlCommand (fun s => initCheck (initClear s)) s

/-- RESET (R116): the reset state, accepted also while an error is latched. -/
def execReset (s : State) : Result := controlCommand resetState s

/-- An illegal command word (R93, R110, R194): ignored while an error is latched, else DONE 0 and ILLEGAL_CMD. -/
def illegalCommand (s : State) : Result :=
  controlCommand (fun s => if s.status.err.isSome then s else raiseError .illegalCmd (setDone false s)) s

end Sys2Proof.Machine
end

