-- ==== Sys2Proof/Machine/PlaneOps.lean ====
section
/-! DEFINITION. The plane operations REDUCE, PACK, UNPACKP, UNPACKN, EMIT (`41_plane_ops.md`, R130 to R134). -/

namespace Sys2Proof.Machine

/-- REDUCE at acceptance (R130): STV 0, the accumulators at 0 and 255. -/
def reduceSetup (s : State) : State := { setStv false s with statMax := 0, statMin := 255 }

/-- The two independent strict tests of R130 on one luma sample. -/
def accumulate (y : Byte) (s : State) : State :=
  { s with
    statMax := if s.statMax.toNat < y.toNat then y else s.statMax
    statMin := if y.toNat < s.statMin.toNat then y else s.statMin }

/-- The work-item of REDUCE (R130). -/
def reduceItem (x : WorkItem) (s : State) : Option State :=
  (memRead s (planeAddr s.regs.srcY x.row x.col)).map fun y => accumulate y s

/-- REDUCE (R130): STV 1 when it completes; on a faulting read STV 0 and the accumulators as they stood (R113). -/
def execReduce (s : State) : Result :=
  frameCommand .reduce
    { setup := reduceSetup, body := reduceItem, finish := setStv true, onFault := setStv false } s

/-- The work-item of PACK (R131): luma at its own position, chroma at its block's (R64), component 3 zero. -/
def packItem (x : WorkItem) (s : State) : Option State :=
  match memRead s (planeAddr s.regs.srcY x.row x.col),
    memRead s (planeAddr s.regs.srcA x.crow x.ccol),
    memRead s (planeAddr s.regs.srcB x.crow x.ccol) with
  | some y, some a, some b => some (wbufWrite x.gid { c0 := y, c1 := a, c2 := b, c3 := 0 } s)
  | _, _, _ => none

/-- PACK (R131): WBV 0 at acceptance, 1 when it completes; on a faulting read WBV 0 and WBUF unspecified (R113, R39). -/
def execPack (s : State) : Result :=
  frameCommand .pack
    { setup := setWbv false, body := packItem, finish := setWbv true
      onFault := fun s => wbufForget (setWbv false s) } s

/-- The two chroma writes of a work-item, made by the block's representative only (R132, R133, R180, R181). -/
def writeChroma (x : WorkItem) (a b : Byte) (s : State) : Option State :=
  if x.rep then
    (memWrite (planeAddr s.regs.dstA x.crow x.ccol) a s).bind
      (memWrite (planeAddr s.regs.dstB x.crow x.ccol) b)
  else some s

/-- The writes of one work-item to the destination planes: luma, then chroma (R132, R133, R180; order R74). -/
def writePlanes (x : WorkItem) (y a b : Byte) (s : State) : Option State :=
  (memWrite (planeAddr s.regs.dstY x.row x.col) y s).bind (writeChroma x a b)

/-- The work-item of UNPACKP (R132): chroma from the representative's components 1 and 2. -/
def unpackpItem (x : WorkItem) (s : State) : Option State :=
  writePlanes x (wbufRead s x.gid).c0 (wbufRead s x.gid).c1 (wbufRead s x.gid).c2 s

/-- UNPACKP (R132). -/
def execUnpackp (s : State) : Result :=
  frameCommand .unpackp { setup := id, body := unpackpItem, finish := id, onFault := id } s

/-- The work-item of UNPACKN (R133): chroma forced to the neutral 128. -/
def unpacknItem (x : WorkItem) (s : State) : Option State :=
  writePlanes x (wbufRead s x.gid).c0 128 128 s

/-- UNPACKN (R133). -/
def execUnpackn (s : State) : Result :=
  frameCommand .unpackn { setup := id, body := unpacknItem, finish := id, onFault := id } s

/-- The work-item of EMIT (R134): the four components at four rising addresses (R65), in the order c0 to c3 (R68). -/
def emitItem (x : WorkItem) (s : State) : Option State :=
  let p := wbufRead s x.gid
  let a := pixelAddr s.regs.dstI x.row x.col
  (memWrite (a 0) p.c0 s).bind fun s1 =>
    (memWrite (a 1) p.c1 s1).bind fun s2 =>
      (memWrite (a 2) p.c2 s2).bind fun s3 => memWrite (a 3) p.c3 s3

/-- EMIT (R134). -/
def execEmit (s : State) : Result :=
  frameCommand .emit { setup := id, body := emitItem, finish := id, onFault := id } s

end Sys2Proof.Machine
end

