-- ==== Sys2Proof/Machine/Kernel.lean ====
section
/-! DEFINITION. The fused kernel KERN3 (`43_kernel.md`, R180, R181). -/

namespace Sys2Proof.Machine

/-- The work-item of KERN3 (R180): one luma read, variant 3, the luma write, and the chroma writes of a representative
(R181). -/
def kern3Item (x : WorkItem) (s : State) : Option State :=
  (memRead s (planeAddr s.regs.srcY x.row x.col)).bind fun y =>
    writePlanes x (v3 s.cfg y).1 (v3 s.cfg y).2.1 (v3 s.cfg y).2.2 s

/-- KERN3 (R180). It uses neither WBUF nor the source chroma registers. -/
def execKern3 (s : State) : Result :=
  frameCommand .kern3 { setup := id, body := kern3Item, finish := id, onFault := id } s

end Sys2Proof.Machine
end

