-- ==== Sys2Proof/Machine/Dispatch.lean ====
section
/-! DEFINITION. The dispatch of R110 step 4: one arm per command, each a direct call of its meaning. -/

namespace Sys2Proof.Machine

/-- What a command does: its issue while the engine is idle, one turn of the engine while it is the running command. -/
def exec (i : Instr) (s : State) : Host.Outcome State Fault Refusal :=
  match i with
  | .nop => Sys2Proof.Machine.execNop s
  | .init => Sys2Proof.Machine.execInit s
  | .reduce => Sys2Proof.Machine.execReduce s
  | .pack => Sys2Proof.Machine.execPack s
  | .map1 => Sys2Proof.Machine.execMap1 s
  | .map2 => Sys2Proof.Machine.execMap2 s
  | .map3 => Sys2Proof.Machine.execMap3 s
  | .unpackp => Sys2Proof.Machine.execUnpackp s
  | .unpackn => Sys2Proof.Machine.execUnpackn s
  | .emit => Sys2Proof.Machine.execEmit s
  | .kern3 => Sys2Proof.Machine.execKern3 s
  | .reset => Sys2Proof.Machine.execReset s

end Sys2Proof.Machine
end

