-- ==== Sys2Proof/Machine/Port.lean ====
section
/-! DEFINITION. The register port (R21, R22 of `10_state.md`): which register an offset names, what a read returns, what
a write stores (R96), and the side effects of writes (R26, R37, R38). Issuing a command is `Agents.lean`. -/

namespace Sys2Proof.Machine

/-- The register map of R22; none for a reserved offset (R36). -/
def regAt (off : Nat) : Option RegName :=
  match off with
  | 0x00 => some .id
  | 0x04 => some .cmd
  | 0x08 => some .status
  | 0x0C => some .ien
  | 0x10 => some .format
  | 0x14 => some .mode
  | 0x18 => some .wgsize
  | 0x20 => some .width
  | 0x24 => some .height
  | 0x28 => some .srcYBase
  | 0x2C => some .srcYStride
  | 0x30 => some .srcABase
  | 0x34 => some .srcAStride
  | 0x38 => some .srcBBase
  | 0x3C => some .srcBStride
  | 0x40 => some .dstYBase
  | 0x44 => some .dstYStride
  | 0x48 => some .dstABase
  | 0x4C => some .dstAStride
  | 0x50 => some .dstBBase
  | 0x54 => some .dstBStride
  | 0x58 => some .dstIBase
  | 0x5C => some .dstIStride
  | 0x60 => some .statMin
  | 0x64 => some .statMax
  | 0x68 => some .gid
  | _ => none

/-- The identity constant of R23. -/
def idWord : Word := 0x434C4D01#32

/-- The word a read of a register returns (R22 to R35); fields are zero-extended, reserved bits are 0 (R36, R96). -/
def readReg (r : RegName) (s : State) : Word :=
  match r with
  | .id => idWord
  | .cmd => 0
  | .status => s.statusWord
  | .ien => 0#30 ++ BitVec.ofBool s.regs.errIe ++ BitVec.ofBool s.regs.doneIe
  | .format => s.regs.fmt.setWidth 32
  | .mode => 0#30 ++ BitVec.ofBool s.regs.evenChk ++ BitVec.ofBool s.regs.engine
  | .wgsize => s.regs.wgsize
  | .width => s.regs.width.setWidth 32
  | .height => s.regs.height.setWidth 32
  | .srcYBase => s.regs.srcY.base
  | .srcYStride => s.regs.srcY.stride
  | .srcABase => s.regs.srcA.base
  | .srcAStride => s.regs.srcA.stride
  | .srcBBase => s.regs.srcB.base
  | .srcBStride => s.regs.srcB.stride
  | .dstYBase => s.regs.dstY.base
  | .dstYStride => s.regs.dstY.stride
  | .dstABase => s.regs.dstA.base
  | .dstAStride => s.regs.dstA.stride
  | .dstBBase => s.regs.dstB.base
  | .dstBStride => s.regs.dstB.stride
  | .dstIBase => s.regs.dstI.base
  | .dstIStride => s.regs.dstI.stride
  | .statMin => s.statMin.setWidth 32
  | .statMax => s.statMax.setWidth 32
  | .gid => s.gid

/-- The word a RegRead at an offset of the port returns; a reserved offset reads 0 (R36). -/
def portRead (off : BitVec 8) (s : State) : Word :=
  match regAt off.toNat with
  | some r => readReg r s
  | none => 0

/-- What a write stores in the host-written registers (R96): the bits of defined fields, the rest dropped. Read-only
registers, STATUS and CMD store nothing here. -/
def storeReg (r : RegName) (w : Word) (g : Regs) : Regs :=
  match r with
  | .ien => { g with doneIe := w.getLsbD 0, errIe := w.getLsbD 1 }
  | .format => { g with fmt := w.setWidth 8 }
  | .mode => { g with engine := w.getLsbD 0, evenChk := w.getLsbD 1 }
  | .wgsize => { g with wgsize := w }
  | .width => { g with width := w.setWidth 16 }
  | .height => { g with height := w.setWidth 16 }
  | .srcYBase => { g with srcY := { g.srcY with base := w } }
  | .srcYStride => { g with srcY := { g.srcY with stride := w } }
  | .srcABase => { g with srcA := { g.srcA with base := w } }
  | .srcAStride => { g with srcA := { g.srcA with stride := w } }
  | .srcBBase => { g with srcB := { g.srcB with base := w } }
  | .srcBStride => { g with srcB := { g.srcB with stride := w } }
  | .dstYBase => { g with dstY := { g.dstY with base := w } }
  | .dstYStride => { g with dstY := { g.dstY with stride := w } }
  | .dstABase => { g with dstA := { g.dstA with base := w } }
  | .dstAStride => { g with dstA := { g.dstA with stride := w } }
  | .dstBBase => { g with dstB := { g.dstB with base := w } }
  | .dstBStride => { g with dstB := { g.dstB with stride := w } }
  | .dstIBase => { g with dstI := { g.dstI with base := w } }
  | .dstIStride => { g with dstI := { g.dstI with stride := w } }
  | .id => g
  | .cmd => g
  | .status => g
  | .statMin => g
  | .statMax => g
  | .gid => g

/-- The registers whose write clears READY (R38). -/
def clearsReady (r : RegName) : Bool :=
  r == .format || r == .mode || r == .width || r == .height

/-- The registers a write reaches also during BUSY, without BWR (R23, R26, R27, R37). -/
def writableWhileBusy (r : RegName) : Bool := r == .status || r == .ien || r == .id

/-- A write of `w` to register `r` that is not dropped, CMD apart (R26, R38, R96). -/
def writeReg (r : RegName) (w : Word) (s : State) : State :=
  if r = .status then writeStatus w s
  else
    let s1 := { s with regs := storeReg r w s.regs }
    if clearsReady r then setReady false s1 else s1

end Sys2Proof.Machine
end

