-- ==== Sys2Proof/Machine/Agents.lean ====
section
/-! DEFINITION. The moves of the agents of R7: a register transaction (R21), the issue of a command (R110), the host's
own memory accesses (R76, R222), the hardware reset (R220), and a turn of the engine (R112). -/

namespace Sys2Proof.Machine

/-- Command issue (R110): the word is decoded, a legal one is executed, an illegal one raises ILLEGAL_CMD (R93). Steps
1 and 2 stand in the meanings. -/
def issue (w : Word) (s : State) : Result :=
  match decode w with
  | .ok i => exec i s
  | .error _ => illegalCommand s

/-- A RegWrite at an existing offset. During BUSY it is dropped and sets BWR, but for STATUS, IEN and ID (R37); a write
to a reserved offset is ignored, and during BUSY sets BWR all the same (R36). -/
def portWrite (off : BitVec 8) (w : Word) (s : State) : Result :=
  match regAt off.toNat with
  | none => .next (if s.busy then dropWrite s else s)
  | some r =>
    if s.busy && !writableWhileBusy r then .next (dropWrite s)
    else if r = .cmd then issue w s
    else .next (writeReg r w s)

/-- The host's own write of frame memory (R222 step 6). An address of the running command's footprints is not the
host's to write (R76, U11; log 12). -/
def hostMemWrite (a : Word) (v : Byte) (s : State) : Result :=
  match s.running with
  | some i =>
    if (readFootprint i s ++ writeFootprint i s).contains a.toNat then .refused .hostTouchesFootprint
    else .next { s with mem := s.mem.write a.toNat v }
  | none => .next { s with mem := s.mem.write a.toNat v }

/-- The host's own read of frame memory (R222 step 9). The running command's write footprint is not the host's to rely
on (R76, U11; log 12). -/
def hostMemRead (a : Word) (s : State) : Result :=
  match s.running with
  | some i =>
    if (writeFootprint i s).contains a.toNat then .refused .hostTouchesFootprint
    else .next { s with mdata := some (s.mem.read a.toNat) }
  | none => .next { s with mdata := some (s.mem.read a.toNat) }

/-- A turn of the engine with the parallel engine's choice `k`: one step of the running command (R112), nothing when the
engine is idle (R220). -/
def engineMove (k : Nat) (s : State) : Result :=
  match s.running with
  | some i => exec i { s with pick := k }
  | none => .next s

/-- One move of an agent. -/
def agentMove (e : Event) (s : State) : Result :=
  match e with
  | .regWrite off w => if offsetWf off then portWrite off w s else .fault .noSuchOffset
  | .regRead off => if offsetWf off then .next { s with rdata := some (portRead off s) } else .fault .noSuchOffset
  | .memWrite a v => hostMemWrite a v s
  | .memRead a => hostMemRead a s
  | .hardReset => .next (hardReset s)
  | .engine k => engineMove k s

end Sys2Proof.Machine
end

