-- ==== Sys2Proof/Machine/Step.lean ====
section
/-! DEFINITION. One step: the move at the head of the agenda; with an empty agenda the engine runs if it is busy, and
nothing happens otherwise (R220; log 22). And the place where a command word is put so that the next step runs it. -/

namespace Sys2Proof.Machine

/-- One step of the machine: the agent whose move is next makes it (log 1). -/
def step (s : State) : Host.Outcome State Fault Refusal :=
  match s.agenda with
  | [] => engineMove 0 s
  | e :: rest => agentMove e { s with agenda := rest }

/-- The state in which the host's next move is the write to CMD (offset 0x04, R24, R90) of the command word that the
bits `w` of an opcode-table row stand for. -/
def State.withFetchWord (s : State) (nbits w : Nat) : State :=
  { s with agenda := .regWrite 0x04 (tableWord nbits w) :: s.agenda }

end Sys2Proof.Machine
end

