-- ==== Sys2Proof/Safety.lean ====
section
/-! DEFINITION. What counts as a proper use and a safe state of CLM, in the terms the statements use: when a frame
command may be launched (R111, R73), when the platform answers its accesses (R71), the accesses of one work-item, runs
of the machine, and the invariant of all reachable states. -/

namespace Sys2Proof.Machine

/-- A frame command issued in `s` is accepted: the engine is idle and no error is latched (R110), the prologue of R111
finds nothing wrong, and the footprints overlap nowhere (R73) and are plain memory (R68). -/
structure Launchable (i : Instr) (s : State) : Prop where
  frame : isFrame i = true
  idle : s.running = none
  noErr : s.status.err = none
  ready : s.status.ready = true
  wbv : needsWbv i = true → s.status.wbv = true
  stv : needsStv i = true → s.status.stv = true
  strides : stridesOk i s = true
  overlap : noOverlap i s = true
  plain : plainFootprint i s = true

/-- The platform answers every access of the command's footprints (R71): none of them fails. -/
def footprintAnswers (i : Instr) (s : State) : Bool :=
  (readFootprint i s).all (fun a => !memFault s.cfg a .read)
    && (writeFootprint i s).all (fun a => !memFault s.cfg a .write)

/-- The three accesses of a work-item that writes the destination planes (R132, R133, R180): luma, and chroma for the
block's representative. -/
def planeWrites (x : WorkItem) (s : State) : List (Nat × AccessKind) :=
  (planeAddr s.regs.dstY x.row x.col, .write) ::
    (if x.rep then [(planeAddr s.regs.dstA x.crow x.ccol, .write), (planeAddr s.regs.dstB x.crow x.ccol, .write)]
     else [])

/-- The frame-memory accesses of one work-item, in their order (R74; R130 to R134, R154, R160, R165, R180). -/
def itemAccesses (i : Instr) (x : WorkItem) (s : State) : List (Nat × AccessKind) :=
  match i with
  | .reduce => [(planeAddr s.regs.srcY x.row x.col, .read)]
  | .pack => [(planeAddr s.regs.srcY x.row x.col, .read), (planeAddr s.regs.srcA x.crow x.ccol, .read),
      (planeAddr s.regs.srcB x.crow x.ccol, .read)]
  | .unpackp => planeWrites x s
  | .unpackn => planeWrites x s
  | .emit => (List.range 4).map fun k => (pixelAddr s.regs.dstI x.row x.col k, .write)
  | .kern3 => (planeAddr s.regs.srcY x.row x.col, .read) :: planeWrites x s
  | .nop => []
  | .init => []
  | .map1 => []
  | .map2 => []
  | .map3 => []
  | .reset => []

/-- Some access of the work-item fails (R71). -/
def itemFaults (i : Instr) (x : WorkItem) (s : State) : Bool :=
  (itemAccesses i x s).any fun p => memFault s.cfg p.1 p.2

/-- The table of R111 step 4, written out: some stride register the command uses is smaller than its row's byte count,
with W, CW and 4*W as R42 derives them. -/
def strideTooSmall (i : Instr) (s : State) : Prop :=
  let width := s.regs.width.toNat
  let chroma := (width + 1) / 2
  let dstShort := s.regs.dstY.stride.toNat < width ∨ s.regs.dstA.stride.toNat < chroma ∨
    s.regs.dstB.stride.toNat < chroma
  match i with
  | .reduce => s.regs.srcY.stride.toNat < width
  | .pack => s.regs.srcY.stride.toNat < width ∨ s.regs.srcA.stride.toNat < chroma ∨
      s.regs.srcB.stride.toNat < chroma
  | .unpackp => dstShort
  | .unpackn => dstShort
  | .emit => s.regs.dstI.stride.toNat < 4 * width
  | .kern3 => s.regs.srcY.stride.toNat < width ∨ dstShort
  | .map1 => False
  | .map2 => False
  | .map3 => False
  | .nop => False
  | .init => False
  | .reset => False

/-- The reset column of the register map (R22, R45): what a read of each register returns after reset. -/
def resetWord (r : RegName) : Word :=
  match r with
  | .id => 0x434C4D01#32
  | .wgsize => 512
  | .statMin => 255
  | .cmd => 0
  | .status => 0
  | .ien => 0
  | .format => 0
  | .mode => 0
  | .width => 0
  | .height => 0
  | .srcYBase => 0
  | .srcYStride => 0
  | .srcABase => 0
  | .srcAStride => 0
  | .srcBBase => 0
  | .srcBStride => 0
  | .dstYBase => 0
  | .dstYStride => 0
  | .dstABase => 0
  | .dstAStride => 0
  | .dstBBase => 0
  | .dstBStride => 0
  | .dstIBase => 0
  | .dstIStride => 0
  | .statMax => 0
  | .gid => 0

/-- `k` steps of the machine, stopping at the first fault or refusal. -/
def runSteps (k : Nat) (s : State) : Result :=
  match k with
  | 0 => .next s
  | k + 1 =>
    match step s with
    | .next t => runSteps k t
    | .fault r => .fault r
    | .refused r => .refused r

/-- `k` steps of the machine from `s` end in `t`, with no fault and no refusal. -/
def runsTo (k : Nat) (s t : State) : Prop := runSteps k s = .next t

/-- The moves "the host writes the command word of `i` to CMD, then the engine takes a turn for each choice of `ks`". -/
def issueMoves (i : Instr) (ks : List Nat) : List Event := .regWrite 0x04 (encode i) :: ks.map .engine

/-- What every frame command that completes without error leaves (R113, R95): the engine idle, GID = N, nothing left to
run, and the registers, the parameters, the replies and the coming moves `rest` as they were. -/
structure Completed (rest : List Event) (s t : State) : Prop where
  idle : t.running = none
  gid : t.gid.toNat = s.n
  todo : t.todo = []
  regs : t.regs = s.regs
  cfg : t.cfg = s.cfg
  rdata : t.rdata = s.rdata
  mdata : t.mdata = s.mdata
  freeCtr : t.freeCtr = s.freeCtr
  agenda : t.agenda = rest

/-- What holds while the command `i` runs: it was launched properly and still is; the work-items yet to run and GID
account for all N (R112, R35); in order, the next one is GID (R35); and the flags and data stand as the running command
leaves them (R111, R130, R131, R160). -/
structure RunningWell (i : Instr) (s : State) : Prop where
  frame : isFrame i = true
  ready : s.status.ready = true
  noErr : s.status.err = none
  notDone : s.status.done = false
  wbv : needsWbv i = true → s.status.wbv = true
  stv : needsStv i = true → s.status.stv = true
  packing : i = .pack → s.status.wbv = false
  reducing : i = .reduce → s.status.stv = false
  mixing : i = .map2 → s.smooth.isSome = true
  strides : stridesOk i s = true
  overlap : noOverlap i s = true
  plain : plainFootprint i s = true
  todoNodup : s.todo.Nodup
  todoBelow : ∀ g ∈ s.todo, g < s.n
  count : s.gid.toNat + s.todo.length = s.n
  order : inOrder i s = true → s.todo = List.range' s.gid.toNat (s.n - s.gid.toNat)
  accumulated : i = .reduce → 0 < s.gid.toNat → s.statMin.toNat ≤ s.statMax.toNat
  written : i = .pack → ∀ g < s.n, g ∉ s.todo → (sparseFind s.wbuf g).isSome = true

/-- The invariant of the machine: memory and working buffer are in canonical form; READY means that INIT checked the
present FORMAT, MODE, WIDTH and HEIGHT (R25, R38, R115); with READY and WBV every pixel below N has been written (R39);
STV means ordered statistics (R130); SMOOTH lies in [1, 2] (R161); a latched error excludes DONE (R202, D17); and a
running command runs well. -/
structure State.Inv (s : State) : Prop where
  memWf : s.mem.wf = true
  wbufRising : sparseRising none s.wbuf = true
  readyFormat : s.status.ready = true → s.regs.fmt = 0
  readyEngine : s.status.ready = true → s.regs.engine = true → s.cfg.hasPar = true
  readyGeometry : s.status.ready = true → geometryOk s = true
  packed : s.status.ready = true → s.status.wbv = true → ∀ g < s.n, (sparseFind s.wbuf g).isSome = true
  statsOrdered : s.status.stv = true → s.statMin.toNat ≤ s.statMax.toNat
  smoothBound : ∀ q, s.smooth = some q → 1 ≤ q ∧ q ≤ 2
  errNotDone : s.status.err ≠ none → s.status.done = false
  runningWell : ∀ i, s.running = some i → RunningWell i s

end Sys2Proof.Machine
end

