-- ==== Sys2Proof/Certificates/Slice0/Obligations.lean ====
section
/-! DEFINITION. The statements about the machine, for the provers. Each docstring names the rules of `spec/` the
statement rests on, and the log entries where it rests on a choice of the model. -/

open Sys2Proof Sys2Proof.Machine

/-! ### Encoding -/

/-- R91: a word is a legal command word iff its bits 31:8 are zero and its bits 7:0 are one of the twelve opcodes, and as
a match and mask pair every command matches exactly its one word. -/
def Obligations.LegalWordsAreExactlyTheTwelve : Prop :=
  ∀ w : Word,
    (legalWord w = true ↔
      w.extractLsb' 8 24 = 0#24 ∧
        (w.extractLsb' 0 8).toNat ∈ [0x00, 0x01, 0x02, 0x03, 0x04, 0x05, 0x06, 0x07, 0x08, 0x09, 0x0A, 0x0F]) ∧
    ∀ i : Instr, decode w = .ok i ↔ w = encode i

/-- R92: the opcode map, read by the decoder, and three words R93 calls illegal. -/
def Obligations.OpcodeMapIsDecoded : Prop :=
  decode 0x00000000#32 = .ok .nop ∧ decode 0x00000001#32 = .ok .init ∧ decode 0x00000002#32 = .ok .reduce ∧
  decode 0x00000003#32 = .ok .pack ∧ decode 0x00000004#32 = .ok .map1 ∧ decode 0x00000005#32 = .ok .map2 ∧
  decode 0x00000006#32 = .ok .map3 ∧ decode 0x00000007#32 = .ok .unpackp ∧ decode 0x00000008#32 = .ok .unpackn ∧
  decode 0x00000009#32 = .ok .emit ∧ decode 0x0000000A#32 = .ok .kern3 ∧ decode 0x0000000F#32 = .ok .reset ∧
  decode 0x0000000B#32 = .error .unassignedOpcode ∧ decode 0x00000103#32 = .error .reservedBitsSet ∧
  decode 0xFFFFFFFF#32 = .error .reservedBitsSet

/-- Decode and encode agree on every well-formed command (R91, R92). -/
def Obligations.DecodeOfEncodeIsTheCommand : Prop :=
  ∀ i : Instr, i.wf = true → decode (encode i) = .ok i

/-! ### One step -/

/-- A step runs the decoded command (R24, R110 step 4): when the next move is a write to CMD and the engine is idle, the
step is `exec` of the command the word decodes to, on the state whose next moves are the rest. -/
def Obligations.StepRunsTheIssuedCommand : Prop :=
  ∀ (s : State) (w : Word) (i : Instr) (rest : List Event),
    s.agenda = .regWrite 0x04 w :: rest → s.running = none → decode w = .ok i →
      step s = exec i { s with agenda := rest }

/-- A turn of the engine is a step of the running command (R112), and with an idle engine nothing happens (R220). The
form of the turns is the model's choice, logs 1, 3 and 22. -/
def Obligations.StepGivesTheEngineItsTurns : Prop :=
  ∀ (s : State),
    (∀ i, s.running = some i →
      (∀ k rest, s.agenda = .engine k :: rest → step s = exec i { s with agenda := rest, pick := k }) ∧
      (s.agenda = [] → step s = exec i { s with pick := 0 })) ∧
    (s.running = none →
      (∀ k rest, s.agenda = .engine k :: rest → step s = .next { s with agenda := rest }) ∧
      (s.agenda = [] → step s = .next s))

/-- R110: command issue, its four steps. -/
def Obligations.CommandIssueFollowsItsFourSteps : Prop :=
  ∀ (s : State) (w : Word) (rest : List Event), s.agenda = .regWrite 0x04 w :: rest →
    (s.running ≠ none →
      step s = .next { s with agenda := rest, status := { s.status with bwr := true } }) ∧
    (s.running = none → s.status.err ≠ none → w ≠ 0x00000001#32 → w ≠ 0x0000000F#32 →
      step s = .next { s with agenda := rest }) ∧
    (s.running = none → s.status.err = none → legalWord w = false →
      step s = .next { s with agenda := rest, status := { s.status with done := false, err := some .illegalCmd } }) ∧
    (s.running = none → (s.status.err = none ∨ w = 0x00000001#32 ∨ w = 0x0000000F#32) →
      ∀ i, decode w = .ok i → step s = exec i { s with agenda := rest })

/-! ### NOP, INIT, RESET and the hardware reset -/

/-- R114: NOP sets DONE and nothing else; while an error is latched it is ignored; after reset STATUS then reads 2. -/
def Obligations.NopOnlySetsDone : Prop :=
  (∀ s : State, s.running = none →
    (s.status.err = none → exec .nop s = .next { s with status := { s.status with done := true } }) ∧
    (s.status.err ≠ none → exec .nop s = .next s)) ∧
  encode .nop = 0x00000000#32 ∧
  ∃ t, exec .nop State.reset = .next t ∧ t.statusWord = 0x00000002#32

/-- R115: INIT clears, checks FORMAT, engine and geometry in this order, and reports or succeeds; it keeps the
registers, BWR and MEM. The contents of WBUF are left open. -/
def Obligations.InitConstructsOrReports : Prop :=
  ∀ s : State, s.running = none →
    ∃ t, exec .init s = .next t ∧ encode .init = 0x00000001#32 ∧
      t.running = none ∧ t.regs = s.regs ∧ t.cfg = s.cfg ∧ t.mem = s.mem ∧ t.smooth = none ∧
      t.statMin = 255 ∧ t.statMax = 0 ∧ t.gid = 0 ∧
      t.todo = s.todo ∧ t.pick = s.pick ∧ t.agenda = s.agenda ∧ t.rdata = s.rdata ∧ t.mdata = s.mdata ∧
      t.status =
        (if s.regs.fmt ≠ 0 then
          { done := false, ready := false, wbv := false, stv := false, bwr := s.status.bwr, err := some .unsupportedFormat }
        else if s.regs.engine = true ∧ s.cfg.hasPar = false then
          { done := false, ready := false, wbv := false, stv := false, bwr := s.status.bwr, err := some .deviceUnavailable }
        else if s.regs.width.toNat = 0 ∨ s.regs.height.toNat = 0 ∨
            s.cfg.wbufPixels < s.regs.width.toNat * s.regs.height.toNat ∨
            (s.regs.evenChk = true ∧ (s.regs.width.toNat % 2 = 1 ∨ s.regs.height.toNat % 2 = 1)) then
          { done := false, ready := false, wbv := false, stv := false, bwr := s.status.bwr, err := some .geometry }
        else
          { done := true, ready := true, wbv := false, stv := false, bwr := s.status.bwr, err := none })

/-- R116 with R45: RESET gives every register its reset value, SMOOTH unset and irq low, and keeps MEM; it is accepted
with an error latched too, and while BUSY it is dropped and sets BWR. That the coming moves and the replies stay is the
model's choice, log 19. -/
def Obligations.ResetCommandRestoresResetValues : Prop :=
  ∀ s : State,
    (s.running = none →
      ∃ t, exec .reset s = .next t ∧ (∀ r : RegName, readReg r t = resetWord r) ∧ t.running = none ∧
        t.smooth = none ∧ t.irq = false ∧ t.mem = s.mem ∧ t.cfg = s.cfg ∧ t.agenda = s.agenda ∧ t.rdata = s.rdata ∧
        t.mdata = s.mdata) ∧
    (s.running ≠ none → exec .reset s = .next { s with status := { s.status with bwr := true } })

/-- R45 and the register map of R22: what each offset of the register port reads in the reset state, the reserved ones
included. -/
def Obligations.ResetStateHoldsTheSpecsValues : Prop :=
  portRead 0x00 State.reset = 0x434C4D01#32 ∧ portRead 0x18 State.reset = 512#32 ∧
  portRead 0x60 State.reset = 255#32 ∧
  (∀ k < 64, k ≠ 0x00 / 4 → k ≠ 0x18 / 4 → k ≠ 0x60 / 4 →
    portRead (BitVec.ofNat 8 (4 * k)) State.reset = 0#32) ∧
  (∀ r : RegName, readReg r State.reset = resetWord r) ∧
  State.reset.smooth = none ∧ State.reset.irq = false ∧ State.reset.running = none

/-- R220: the hardware reset gives the reset values at any time; MEM is untouched, but for the write footprint of a
running command, which it ends. -/
def Obligations.HardwareResetEndsARunningCommand : Prop :=
  ∀ (s : State) (rest : List Event), s.agenda = .hardReset :: rest →
    ∃ t, step s = .next t ∧ (∀ r : RegName, readReg r t = resetWord r) ∧ t.running = none ∧ t.smooth = none ∧
      t.irq = false ∧ t.cfg = s.cfg ∧ t.agenda = rest ∧
      (s.running = none → t.mem = s.mem) ∧
      (∀ i, s.running = some i → ∀ a, a ∉ writeFootprint i s → t.mem.read a = s.mem.read a)

/-! ### Issuing a frame command -/

/-- The prologue's errors (R111 steps 1 to 4, R195, R197, R198), in the order of R201: each leaves the state as it was,
but for DONE 0 and the code. -/
def Obligations.PrologueReportsErrorsInOrder : Prop :=
  ∀ (i : Instr) (s : State), isFrame i = true → s.running = none → s.status.err = none →
    (s.status.ready = false →
      exec i s = .next { s with status := { s.status with done := false, err := some .notReady } }) ∧
    (s.status.ready = true →
      (i ∈ [Instr.map1, .map2, .map3, .unpackp, .unpackn, .emit] ∧ s.status.wbv = false ∨
        i = .map2 ∧ s.status.stv = false) →
      exec i s = .next { s with status := { s.status with done := false, err := some .sequence } }) ∧
    (s.status.ready = true →
      (i ∈ [Instr.map1, .map2, .map3, .unpackp, .unpackn, .emit] → s.status.wbv = true) →
      (i = .map2 → s.status.stv = true) → strideTooSmall i s →
      exec i s = .next { s with status := { s.status with done := false, err := some .stride } })

/-- Acceptance of each frame command (R111 step 5; R130, R131, R155, R156 and R160 for what REDUCE, PACK and MAP2 do
there): `exec` answers the state with BUSY, GID 0 and all W*H work-items to run, and nothing else changed. -/
def Obligations.FrameCommandsAreAccepted : Prop :=
  ∀ s : State,
    let items := List.range (s.regs.width.toNat * s.regs.height.toNat)
    let go : Instr → State := fun i =>
      { s with status := { s.status with done := false }, running := some i, gid := 0, todo := items }
    let mixNow : Rat := (1 - ((s.statMax.toNat : Rat) - (s.statMin.toNat : Rat)) / 255) ^ 4 + 1
    (Launchable .reduce s → exec .reduce s = .next
      { go .reduce with status := { s.status with done := false, stv := false }, statMin := 255, statMax := 0 }) ∧
    (Launchable .pack s → exec .pack s = .next
      { go .pack with status := { s.status with done := false, wbv := false } }) ∧
    (Launchable .map1 s → exec .map1 s = .next (go .map1)) ∧
    (Launchable .map2 s → exec .map2 s = .next
      { go .map2 with smooth := some (match s.smooth with
          | none => mixNow
          | some p => 1 / 5 * mixNow + 4 / 5 * p) }) ∧
    (Launchable .map3 s → exec .map3 s = .next (go .map3)) ∧
    (Launchable .unpackp s → exec .unpackp s = .next (go .unpackp)) ∧
    (Launchable .unpackn s → exec .unpackn s = .next (go .unpackn)) ∧
    (Launchable .emit s → exec .emit s = .next (go .emit)) ∧
    (Launchable .kern3 s → exec .kern3 s = .next (go .kern3))

/-- A launch the spec gives no meaning is refused, the model's choice of logs 10 and 11: an overlap (R73, U3), a
footprint on a device (R68, U12). -/
def Obligations.MeaninglessLaunchIsRefused : Prop :=
  ∀ (i : Instr) (s : State), isFrame i = true → s.running = none → s.status.err = none → s.status.ready = true →
    (needsWbv i = true → s.status.wbv = true) → (needsStv i = true → s.status.stv = true) → ¬ strideTooSmall i s →
    (noOverlap i s = false → exec i s = .refused .overlappingFootprint) ∧
    (noOverlap i s = true → plainFootprint i s = false → exec i s = .refused .deviceFootprint)

/-! ### One turn of the engine -/

/-- A work-item of REDUCE (R130): one luma sample enters the two accumulators by two independent strict tests, in
increasing gid. -/
def Obligations.ReduceTakesOneSample : Prop :=
  ∀ (s : State) (g : Nat) (rest : List Nat), s.running = some .reduce → s.todo = g :: rest →
    let row := g / s.regs.width.toNat
    let a := (s.regs.srcY.base.toNat + row * s.regs.srcY.stride.toNat + (g - s.regs.width.toNat * row)) % 2 ^ 32
    let y := s.mem.read a
    memFault s.cfg a .read = false →
      exec .reduce s = .next { s with
        statMax := if s.statMax.toNat < y.toNat then y else s.statMax
        statMin := if y.toNat < s.statMin.toNat then y else s.statMin
        todo := rest, gid := s.gid + 1 }

/-- A work-item of PACK (R131): the pixel of `g` takes its luma sample and its block's two chroma samples; component 3 is
zero. -/
def Obligations.PackMovesOnePixel : Prop :=
  ∀ (s : State) (g : Nat), s.running = some .pack → nextGid .pack s = some g →
    let row := g / s.regs.width.toNat
    let col := g - s.regs.width.toNat * row
    let aY := (s.regs.srcY.base.toNat + row * s.regs.srcY.stride.toNat + col) % 2 ^ 32
    let aA := (s.regs.srcA.base.toNat + row / 2 * s.regs.srcA.stride.toNat + col / 2) % 2 ^ 32
    let aB := (s.regs.srcB.base.toNat + row / 2 * s.regs.srcB.stride.toNat + col / 2) % 2 ^ 32
    memFault s.cfg aY .read = false → memFault s.cfg aA .read = false → memFault s.cfg aB .read = false →
      exec .pack s = .next { s with
        wbuf := sparseInsert s.wbuf g
          { c0 := s.mem.read aY, c1 := s.mem.read aA, c2 := s.mem.read aB, c3 := 0 }
        todo := s.todo.erase g, gid := s.gid + 1 }

/-- A work-item of MAP1, MAP2 or MAP3 (R154, R160, R165): components 0 to 2 of its own pixel become the mapper's
outputs, component 3 is kept. -/
def Obligations.MapsTransformOnePixel : Prop :=
  ∀ (s : State) (i : Instr) (g : Nat) (mix : Rat) (f : Byte → Byte × Byte × Byte),
    s.running = some i → nextGid i s = some g →
    (i = .map1 ∧ f = v1 ∨ i = .map2 ∧ s.smooth = some mix ∧ f = v2 mix s.statMin s.statMax ∨
      i = .map3 ∧ f = v3 s.cfg) →
    let p := wbufRead s g
    exec i s = .next { s with
      wbuf := sparseInsert s.wbuf g
        { c0 := (f p.c0).1, c1 := (f p.c0).2.1, c2 := (f p.c0).2.2, c3 := p.c3 }
      todo := s.todo.erase g, gid := s.gid + 1 }

/-- A work-item of UNPACKP, UNPACKN or KERN3 (R132, R133, R180, R181): luma is written; chroma only by the block's
representative, with the pixel's components, with 128, or with variant 3 of the luma sample; every other address keeps
its byte. -/
def Obligations.PlaneWritersWriteOnePixel : Prop :=
  ∀ (s : State) (i : Instr) (g : Nat), s.running = some i → nextGid i s = some g →
    i ∈ [Instr.unpackp, .unpackn, .kern3] →
    let x := workItem s.regs.width.toNat g
    itemFaults i x s = false →
    let p := wbufRead s g
    let o := v3 s.cfg (s.mem.read (planeAddr s.regs.srcY x.row x.col))
    let y := if i = .kern3 then o.1 else p.c0
    let a := if i = .kern3 then o.2.1 else if i = .unpackn then 128 else p.c1
    let b := if i = .kern3 then o.2.2 else if i = .unpackn then 128 else p.c2
    ∃ t, exec i s = .next t ∧ t = { s with mem := t.mem, todo := s.todo.erase g, gid := s.gid + 1 } ∧
      ∀ q, t.mem.read q =
        if x.rep = true ∧ q = planeAddr s.regs.dstB x.crow x.ccol then b
        else if x.rep = true ∧ q = planeAddr s.regs.dstA x.crow x.ccol then a
        else if q = planeAddr s.regs.dstY x.row x.col then y
        else s.mem.read q

/-- A work-item of EMIT (R134, R65): component k of the pixel is written at byte k of its place, in the order c0 to c3
(R68); every other address keeps its byte. -/
def Obligations.EmitWritesFourBytes : Prop :=
  ∀ (s : State) (g : Nat), s.running = some .emit → nextGid .emit s = some g →
    let x := workItem s.regs.width.toNat g
    itemFaults .emit x s = false →
    let p := wbufRead s g
    ∃ t, exec .emit s = .next t ∧ t = { s with mem := t.mem, todo := s.todo.erase g, gid := s.gid + 1 } ∧
      ∀ q, t.mem.read q =
        if q = pixelAddr s.regs.dstI x.row x.col 3 then p.c3
        else if q = pixelAddr s.regs.dstI x.row x.col 2 then p.c2
        else if q = pixelAddr s.regs.dstI x.row x.col 1 then p.c1
        else if q = pixelAddr s.regs.dstI x.row x.col 0 then p.c0
        else s.mem.read q

/-- The epilogue (R113): when all work-items have completed, the final action (PACK sets WBV, REDUCE sets STV, MAP2 clears
STV) and, in one step, BUSY 0 and DONE 1. -/
def Obligations.EngineEndsTheCommandAfterItsItems : Prop :=
  ∀ (s : State) (i : Instr), isFrame i = true → s.running = some i → s.todo = [] →
    exec i s = .next { s with
      running := none
      status := { s.status with
        done := true
        wbv := if i = .pack then true else s.status.wbv
        stv := if i = .reduce then true else if i = .map2 then false else s.status.stv } }

/-- The fault path (R113, R193): a failing access ends the command with DISPATCH; PACK loses WBV, REDUCE loses STV and
keeps its accumulators; GID lies in [0, N]; READY and every byte outside the write footprint stay. -/
def Obligations.FailedAccessTakesTheFaultPath : Prop :=
  ∀ (s : State) (i : Instr) (g : Nat), isFrame i = true → s.running = some i → s.status.err = none →
    nextGid i s = some g → itemFaults i (workItem s.regs.width.toNat g) s = true →
    ∃ t, exec i s = .next t ∧ t.running = none ∧ t.todo = [] ∧
      t.status = { s.status with
        done := false, err := some .dispatch
        wbv := if i = .pack then false else s.status.wbv
        stv := if i = .reduce then false else s.status.stv } ∧
      t.gid.toNat ≤ s.n ∧ t.statMin = s.statMin ∧ t.statMax = s.statMax ∧ t.smooth = s.smooth ∧
      t.regs = s.regs ∧ t.cfg = s.cfg ∧ t.agenda = s.agenda ∧ t.rdata = s.rdata ∧ t.mdata = s.mdata ∧
      (i ≠ .pack → t.wbuf = s.wbuf) ∧
      ∀ a, a ∉ writeFootprint i s → t.mem.read a = s.mem.read a

/-! ### Whole commands: issued, run by any order of turns, completed -/

/-- REDUCE, issued and run to its end (R130, R113): STAT_MIN and STAT_MAX are the least and the greatest luma sample of
the frame. -/
def Obligations.ReduceFindsTheExtremeSamples : Prop :=
  ∀ (s : State) (ks : List Nat) (rest : List Event), Launchable .reduce s → footprintAnswers .reduce s = true →
    ks.length = s.n + 1 → s.agenda = issueMoves .reduce ks ++ rest →
    ∃ t, runsTo (s.n + 2) s t ∧ Completed rest s t ∧
      t.status = { s.status with done := true, stv := true } ∧ t.mem = s.mem ∧ t.wbuf = s.wbuf ∧ t.smooth = s.smooth ∧
      (∀ r < s.h, ∀ c < s.w,
        t.statMin.toNat ≤ (s.mem.read (planeAddr s.regs.srcY r c)).toNat ∧
        (s.mem.read (planeAddr s.regs.srcY r c)).toNat ≤ t.statMax.toNat) ∧
      (0 < s.n →
        (∃ r < s.h, ∃ c < s.w, t.statMin = s.mem.read (planeAddr s.regs.srcY r c)) ∧
        (∃ r < s.h, ∃ c < s.w, t.statMax = s.mem.read (planeAddr s.regs.srcY r c)))

/-- PACK, issued and run to its end in any order (R131, R64): pixel row*W + col holds its luma sample, its block's chroma
samples and zero. -/
def Obligations.PackFillsTheWorkingBuffer : Prop :=
  ∀ (s : State) (ks : List Nat) (rest : List Event), Launchable .pack s → footprintAnswers .pack s = true →
    ks.length = s.n + 1 → s.agenda = issueMoves .pack ks ++ rest →
    ∃ t, runsTo (s.n + 2) s t ∧ Completed rest s t ∧
      t.status = { s.status with done := true, wbv := true } ∧ t.mem = s.mem ∧ t.smooth = s.smooth ∧
      t.statMin = s.statMin ∧ t.statMax = s.statMax ∧
      (∀ r < s.h, ∀ c < s.w, sparseFind t.wbuf (r * s.w + c) = some
        { c0 := s.mem.read (planeAddr s.regs.srcY r c)
          c1 := s.mem.read (planeAddr s.regs.srcA (r / 2) (c / 2))
          c2 := s.mem.read (planeAddr s.regs.srcB (r / 2) (c / 2)), c3 := 0 }) ∧
      (∀ g, s.n ≤ g → sparseFind t.wbuf g = sparseFind s.wbuf g)

/-- MAP1 and MAP3, issued and run to their end in any order (R154, R165): every pixel below N is mapped once, and no
frame memory is touched. -/
def Obligations.FixedMapsTransformEveryPixel : Prop :=
  ∀ (s : State) (i : Instr) (f : Byte → Byte × Byte × Byte) (ks : List Nat) (rest : List Event),
    (i = .map1 ∧ f = v1 ∨ i = .map3 ∧ f = v3 s.cfg) → Launchable i s →
    ks.length = s.n + 1 → s.agenda = issueMoves i ks ++ rest →
    ∃ t, runsTo (s.n + 2) s t ∧ Completed rest s t ∧
      t.status = { s.status with done := true } ∧ t.mem = s.mem ∧ t.smooth = s.smooth ∧
      t.statMin = s.statMin ∧ t.statMax = s.statMax ∧
      (∀ g < s.n,
        let p := wbufRead s g
        wbufRead t g = { c0 := (f p.c0).1, c1 := (f p.c0).2.1, c2 := (f p.c0).2.2, c3 := p.c3 }) ∧
      (∀ g, s.n ≤ g → wbufRead t g = wbufRead s g)

/-- MAP2, issued and run to its end in any order (R155 to R160): SMOOTH takes the smoothed blend portion once, every pixel
below N is mapped with it, and the statistics are consumed. -/
def Obligations.AdaptiveMapTransformsEveryPixel : Prop :=
  ∀ (s : State) (ks : List Nat) (rest : List Event), Launchable .map2 s →
    ks.length = s.n + 1 → s.agenda = issueMoves .map2 ks ++ rest →
    let mix := smoothMix s.smooth (mixNew s.statMin s.statMax)
    ∃ t, runsTo (s.n + 2) s t ∧ Completed rest s t ∧
      t.status = { s.status with done := true, stv := false } ∧ t.mem = s.mem ∧ t.smooth = some mix ∧
      t.statMin = s.statMin ∧ t.statMax = s.statMax ∧
      (∀ g < s.n,
        let p := wbufRead s g
        let o := v2 mix s.statMin s.statMax p.c0
        wbufRead t g = { c0 := o.1, c1 := o.2.1, c2 := o.2.2, c3 := p.c3 }) ∧
      (∀ g, s.n ≤ g → wbufRead t g = wbufRead s g)

/-- UNPACKP and UNPACKN, issued and run to their end in any order (R132, R133, R72): luma from component 0 of every pixel;
each chroma sample from its representative's components 1 and 2, or 128; no other byte of MEM changes. -/
def Obligations.UnpacksWriteThePlanes : Prop :=
  ∀ (s : State) (i : Instr) (ks : List Nat) (rest : List Event), (i = .unpackp ∨ i = .unpackn) → Launchable i s →
    footprintAnswers i s = true → ks.length = s.n + 1 → s.agenda = issueMoves i ks ++ rest →
    ∃ t, runsTo (s.n + 2) s t ∧ Completed rest s t ∧
      t.status = { s.status with done := true } ∧ t.wbuf = s.wbuf ∧ t.smooth = s.smooth ∧
      t.statMin = s.statMin ∧ t.statMax = s.statMax ∧
      (∀ r < s.h, ∀ c < s.w, t.mem.read (planeAddr s.regs.dstY r c) = (wbufRead s (r * s.w + c)).c0) ∧
      (∀ r < s.ch, ∀ c < s.cw,
        t.mem.read (planeAddr s.regs.dstA r c) =
          (if i = .unpackn then 128 else (wbufRead s (2 * r * s.w + 2 * c)).c1) ∧
        t.mem.read (planeAddr s.regs.dstB r c) =
          (if i = .unpackn then 128 else (wbufRead s (2 * r * s.w + 2 * c)).c2)) ∧
      (∀ a, a ∉ writeFootprint i s → t.mem.read a = s.mem.read a)

/-- EMIT, issued and run to its end in any order (R134, R65, R72): byte k of the pixel at (r, c) is component k of pixel
r*W + c; no other byte of MEM changes. -/
def Obligations.EmitWritesTheInterleavedFrame : Prop :=
  ∀ (s : State) (ks : List Nat) (rest : List Event), Launchable .emit s → footprintAnswers .emit s = true →
    ks.length = s.n + 1 → s.agenda = issueMoves .emit ks ++ rest →
    ∃ t, runsTo (s.n + 2) s t ∧ Completed rest s t ∧
      t.status = { s.status with done := true } ∧ t.wbuf = s.wbuf ∧ t.smooth = s.smooth ∧
      t.statMin = s.statMin ∧ t.statMax = s.statMax ∧
      (∀ r < s.h, ∀ c < s.w,
        t.mem.read (pixelAddr s.regs.dstI r c 0) = (wbufRead s (r * s.w + c)).c0 ∧
        t.mem.read (pixelAddr s.regs.dstI r c 1) = (wbufRead s (r * s.w + c)).c1 ∧
        t.mem.read (pixelAddr s.regs.dstI r c 2) = (wbufRead s (r * s.w + c)).c2 ∧
        t.mem.read (pixelAddr s.regs.dstI r c 3) = (wbufRead s (r * s.w + c)).c3) ∧
      (∀ a, a ∉ writeFootprint .emit s → t.mem.read a = s.mem.read a)

/-- KERN3, issued and run to its end in any order (R180, R181, R72): the three destination planes hold variant 3 of the
source luma, chroma from each block's representative; no other byte of MEM changes. -/
def Obligations.Kern3WritesVariant3 : Prop :=
  ∀ (s : State) (ks : List Nat) (rest : List Event), Launchable .kern3 s → footprintAnswers .kern3 s = true →
    ks.length = s.n + 1 → s.agenda = issueMoves .kern3 ks ++ rest →
    ∃ t, runsTo (s.n + 2) s t ∧ Completed rest s t ∧
      t.status = { s.status with done := true } ∧ t.wbuf = s.wbuf ∧ t.smooth = s.smooth ∧
      t.statMin = s.statMin ∧ t.statMax = s.statMax ∧
      (∀ r < s.h, ∀ c < s.w, t.mem.read (planeAddr s.regs.dstY r c) =
        (v3 s.cfg (s.mem.read (planeAddr s.regs.srcY r c))).1) ∧
      (∀ r < s.ch, ∀ c < s.cw,
        t.mem.read (planeAddr s.regs.dstA r c) =
          (v3 s.cfg (s.mem.read (planeAddr s.regs.srcY (2 * r) (2 * c)))).2.1 ∧
        t.mem.read (planeAddr s.regs.dstB r c) =
          (v3 s.cfg (s.mem.read (planeAddr s.regs.srcY (2 * r) (2 * c)))).2.2) ∧
      (∀ a, a ∉ writeFootprint .kern3 s → t.mem.read a = s.mem.read a)

/-- R182, R74: the parallel engine and the scalar engine, in whatever order the work-items run, give the identical final
state for every frame command that the platform answers (after a fault the footprint is left open). MEM and WBUF are in
canonical form, so that equal contents are equal data. -/
def Obligations.EveryOrderGivesTheSameFinalState : Prop :=
  ∀ (i : Instr) (s : State) (par par' : Bool) (ks ks' : List Nat), Launchable i s → footprintAnswers i s = true →
    s.mem.wf = true → sparseRising none s.wbuf = true → ks.length = s.n + 1 → ks'.length = s.n + 1 →
    ∃ t t',
      runsTo (s.n + 2) { s with regs := { s.regs with engine := par }, agenda := issueMoves i ks } t ∧
      runsTo (s.n + 2) { s with regs := { s.regs with engine := par' }, agenda := issueMoves i ks' } t' ∧
      { t with pick := 0, regs := s.regs } = { t' with pick := 0, regs := s.regs }

/-- R180: KERN3 gives byte for byte the planes that PACK, MAP3, UNPACKP give with the same source luma and destination
registers. -/
def Obligations.Kern3EqualsPackMap3Unpackp : Prop :=
  ∀ (s : State) (ks ks1 ks2 ks3 : List Nat), Launchable .kern3 s → Launchable .pack s →
    footprintAnswers .kern3 s = true → footprintAnswers .pack s = true →
    ks.length = s.n + 1 → ks1.length = s.n + 1 → ks2.length = s.n + 1 → ks3.length = s.n + 1 →
    ∃ t u,
      runsTo (s.n + 2) { s with agenda := issueMoves .kern3 ks } t ∧
      runsTo (3 * (s.n + 2))
        { s with agenda := issueMoves .pack ks1 ++ issueMoves .map3 ks2 ++ issueMoves .unpackp ks3 } u ∧
      ∀ a, t.mem.read a = u.mem.read a

/-- R135: PACK then UNPACKP reproduces every luma and chroma sample, and a second PACK, of the planes so written, gives
the same working buffer. -/
def Obligations.PackUnpackRoundTrip : Prop :=
  ∀ (s : State) (ks1 ks2 ks3 : List Nat), Launchable .pack s → footprintAnswers .pack s = true →
    stridesOk .unpackp s = true → noOverlap .unpackp s = true → plainFootprint .unpackp s = true →
    footprintAnswers .unpackp s = true →
    ks1.length = s.n + 1 → ks2.length = s.n + 1 → ks3.length = s.n + 1 →
    ∃ t, runsTo (2 * (s.n + 2)) { s with agenda := issueMoves .pack ks1 ++ issueMoves .unpackp ks2 } t ∧
      (∀ r < s.h, ∀ c < s.w,
        t.mem.read (planeAddr s.regs.dstY r c) = s.mem.read (planeAddr s.regs.srcY r c)) ∧
      (∀ r < s.ch, ∀ c < s.cw,
        t.mem.read (planeAddr s.regs.dstA r c) = s.mem.read (planeAddr s.regs.srcA r c) ∧
        t.mem.read (planeAddr s.regs.dstB r c) = s.mem.read (planeAddr s.regs.srcB r c)) ∧
      ((∀ a ∈ writeFootprint .unpackp s, memFault s.cfg a .read = false) →
        ∃ u, runsTo (s.n + 2)
            { t with
              regs := { t.regs with srcY := t.regs.dstY, srcA := t.regs.dstA, srcB := t.regs.dstB }
              agenda := issueMoves .pack ks3 } u ∧
          ∀ g < s.n, wbufRead u g = wbufRead t g)

/-! ### Invariants and whole-machine rules -/

/-- Every step keeps the invariant `State.Inv`, from any state that has it: canonical memory, READY only with a checked
geometry, no unwritten pixel readable, ordered statistics, SMOOTH in [1, 2], no DONE beside a latched error, and the
running command's account of its work-items. -/
def Obligations.StepKeepsTheInvariant : Prop :=
  ∀ s t : State, s.Inv → step s = .next t → t.Inv

/-- The reset state has the invariant. -/
def Obligations.ResetStateHasTheInvariant : Prop := State.reset.Inv

/-- R72: a running command touches no address of MEM outside its write footprint, padding bytes among them (R68). -/
def Obligations.CommandsWriteOnlyTheirFootprint : Prop :=
  ∀ (s t : State) (i : Instr), s.Inv → s.running = some i →
    (s.agenda = [] ∨ ∃ k rest, s.agenda = .engine k :: rest) → step s = .next t →
    ∀ a, a ∉ writeFootprint i s → t.mem.read a = s.mem.read a

/-- R204: a latched error stays until the host acknowledges it by bit 8 of STATUS, or an accepted INIT or RESET, or the
hardware reset. -/
def Obligations.ErrorStaysUntilAcknowledged : Prop :=
  ∀ (s t : State) (e : ErrorKind), s.status.err = some e → step s = .next t → t.status.err ≠ some e →
    (∃ w rest, s.agenda = .regWrite 0x08 w :: rest ∧ w.getLsbD 8 = true) ∨
    (∃ w rest, s.agenda = .regWrite 0x04 w :: rest ∧ s.running = none ∧
      (decode w = .ok .init ∨ decode w = .ok .reset)) ∨
    (∃ rest, s.agenda = .hardReset :: rest)

/-- READY becomes 1 only by an INIT that is accepted (R25, R38, R115). -/
def Obligations.OnlyInitMakesReady : Prop :=
  ∀ s t : State, s.status.ready = false → step s = .next t → t.status.ready = true →
    ∃ w rest, s.agenda = .regWrite 0x04 w :: rest ∧ s.running = none ∧ decode w = .ok .init

/-- SMOOTH changes only when a MAP2 is accepted, and by INIT, RESET and the hardware reset (R40, R227). -/
def Obligations.SmoothingChangesOncePerMap2 : Prop :=
  ∀ s t : State, step s = .next t → t.smooth ≠ s.smooth →
    (∃ w rest, s.agenda = .regWrite 0x04 w :: rest ∧ s.running = none ∧
      (decode w = .ok .map2 ∧ t.running = some .map2 ∧ t.smv = true ∨
        (decode w = .ok .init ∨ decode w = .ok .reset) ∧ t.smv = false)) ∨
    (∃ rest, s.agenda = .hardReset :: rest ∧ t.smv = false)

/-- R231: a running command cannot be stopped by any register write; only a turn of the engine ends it, or the hardware
reset. -/
def Obligations.NoRegisterWriteStopsACommand : Prop :=
  ∀ (s t : State) (i : Instr), s.running = some i → step s = .next t → t.running ≠ some i →
    s.agenda = [] ∨ (∃ k rest, s.agenda = .engine k :: rest) ∨ (∃ rest, s.agenda = .hardReset :: rest)

/-! ### The colour mapper -/

/-- R151: the tone curve is 40*y/51 + 55, lies in [55, 255], is 255 exactly at 255, and is strictly increasing. -/
def Obligations.ToneCurveRisesWithinBounds : Prop :=
  ∀ y : Byte, tone y = 40 * (y.toNat : Rat) / 51 + 55 ∧ 55 ≤ tone y ∧ tone y ≤ 255 ∧ (tone y = 255 ↔ y = 255) ∧
    ∀ z : Byte, y.toNat < z.toNat → tone y < tone z

/-- R152: the palette of variant 1 on every rational, its branch index on every byte, and that both channels never
decrease and are continuous (they rise by at most 4 and 13/5 for each unit of t). -/
def Obligations.PaletteOfVariantOne : Prop :=
  (∀ t : Rat,
    (t < 70 → k1 t = 0 ∧ r1 t = 0 ∧ g1 t = 90) ∧
    (70 ≤ t → t < 85 → k1 t = 1 ∧ r1 t = (t - 70) * 4 ∧ g1 t = (t - 70) * (26 / 10) + 90) ∧
    (85 ≤ t → k1 t = 2 ∧ r1 t = (t - 85) / 170 * 195 + 60 ∧ g1 t = (t - 85) / 170 * 126 + 129)) ∧
  (∀ t u : Rat, t ≤ u → r1 t ≤ r1 u ∧ g1 t ≤ g1 u) ∧
  (∀ t u : Rat, t ≤ u → r1 u - r1 t ≤ 4 * (u - t) ∧ g1 u - g1 t ≤ 13 / 5 * (u - t)) ∧
  (∀ y : Byte, k1 (tone y) = if y.toNat ≤ 19 then 0 else if y.toNat ≤ 38 then 1 else 2) ∧
  r1 70 = 0 ∧ g1 70 = 90 ∧ r1 85 = 60 ∧ g1 85 = 129

/-- The values R153 and R164 list: variant 1, and variant 3 in the configuration CLM-1. -/
def Obligations.ListedMapperValues : Prop :=
  v1 0 = (0, 90, 255) ∧ v1 19 = (0, 90, 255) ∧ v1 20 = (2, 91, 255) ∧ v1 38 = (59, 128, 255) ∧
  v1 39 = (60, 129, 255) ∧ v1 64 = (83, 143, 255) ∧ v1 128 = (140, 181, 255) ∧ v1 254 = (254, 254, 255) ∧
  v1 255 = (255, 255, 255) ∧
  v3 Config.clm1 0 = (61, 223, 74) ∧ v3 Config.clm1 19 = (70, 218, 66) ∧ v3 Config.clm1 20 = (71, 218, 67) ∧
  v3 Config.clm1 38 = (96, 205, 95) ∧ v3 Config.clm1 39 = (97, 205, 95) ∧ v3 Config.clm1 64 = (115, 196, 99) ∧
  v3 Config.clm1 128 = (162, 173, 109) ∧ v3 Config.clm1 254 = (254, 128, 127) ∧
  v3 Config.clm1 255 = (255, 128, 128)

/-- R155: the blend portion of a frame lies in [1, 2]; it is 2 exactly when the extremes are equal and 1 exactly when they
are 255 apart. -/
def Obligations.BlendPortionLiesInOneToTwo : Prop :=
  ∀ mn mx : Byte, mn.toNat ≤ mx.toNat →
    mixNew mn mx = (1 - ((mx.toNat : Rat) - mn.toNat) / 255) ^ 4 + 1 ∧ 1 ≤ mixNew mn mx ∧ mixNew mn mx ≤ 2 ∧
    (mixNew mn mx = 2 ↔ mx = mn) ∧ (mixNew mn mx = 1 ↔ mx.toNat - mn.toNat = 255)

/-- R158 with the range of R166 for every rational: the four bands, the curve never decreases, its components lie in [0, 255],
and at the boundaries 10, 30, 230 it has the values both neighbouring bands give. -/
def Obligations.FourBandCurveIsContinuousAndBounded : Prop :=
  (∀ u : Rat,
    (u < 10 → curve2 u = (0, 90, 255)) ∧
    (10 ≤ u → u < 30 → curve2 u = ((u - 10) * 3, (u - 10) * 2 + 90, 255)) ∧
    (30 ≤ u → u < 230 → curve2 u = ((u - 30) / 200 * 195 + 60, (u - 30) / 200 * 125 + 130, 255)) ∧
    (230 ≤ u → curve2 u = (255, 255, 255))) ∧
  (∀ u : Rat, 0 ≤ (curve2 u).1 ∧ (curve2 u).1 ≤ 255 ∧ 90 ≤ (curve2 u).2.1 ∧ (curve2 u).2.1 ≤ 255 ∧
    (curve2 u).2.2 = 255) ∧
  (∀ u v : Rat, u ≤ v → (curve2 u).1 ≤ (curve2 v).1 ∧ (curve2 u).2.1 ≤ (curve2 v).2.1) ∧
  (∀ u v : Rat, u ≤ v → (curve2 v).1 - (curve2 u).1 ≤ 3 * (v - u) ∧ (curve2 v).2.1 - (curve2 u).2.1 ≤ 2 * (v - u)) ∧
  curve2 10 = (0, 90, 255) ∧ curve2 30 = (60, 130, 255) ∧ curve2 230 = (255, 255, 255)

/-- R161: for ordered statistics and any history that R161 (a) allows, the smoothed portion lies in [1, 2], the
equalisation is taken only with extremes 255 apart and every earlier portion 1, and it never changes a pixel. -/
def Obligations.AdaptiveStageNeverChangesAPixel : Prop :=
  ∀ (prev : Option Rat) (mn mx y : Byte), mn.toNat ≤ mx.toNat → (∀ p, prev = some p → 1 ≤ p ∧ p ≤ 2) →
    let mix := smoothMix prev (mixNew mn mx)
    1 ≤ mix ∧ mix ≤ 2 ∧
    (0 < mix ∧ mix ≤ 1 ↔ mn = 0 ∧ mx = 255 ∧ (prev = none ∨ prev = some 1)) ∧
    equalise mix mn mx y = (y.toNat : Rat) ∧
    v2 mix mn mx y = (toByte (curve2 (y.toNat : Rat)).1, toByte (curve2 (y.toNat : Rat)).2.1,
      toByte (curve2 (y.toNat : Rat)).2.2)

/-- R162 and R163 with the bounds of R166 for every choice of V3_B: the three dot products of variant 3 stay in the stated
ranges before they are truncated; a white triple gives exactly (255, 128, 128). -/
def Obligations.MatrixVariantStaysInRange : Prop :=
  dot3 (255, 255, 255) = (255, 128, 128) ∧
  ∀ (c : Config) (y : Byte),
    let b : Rat := ((if k1 (tone y) = 0 then c.v3b0 else if k1 (tone y) = 1 then c.v3b1 else c.v3b2).toNat : Rat)
    let d := dot3 (triple3 c y)
    d = (0.299 * r1 (tone y) + 0.587 * tone y + 0.114 * b,
      -0.147 * r1 (tone y) - 0.289 * tone y + 0.436 * b + 128,
      0.615 * r1 (tone y) - 0.515 * tone y - 0.100 * b + 128) ∧
    32.285 ≤ d.1 ∧ d.1 ≤ 255 ∧ 16.82 ≤ d.2.1 ∧ d.2.1 ≤ 223.285 ∧ 66.50049 ≤ d.2.2 ∧ d.2.2 ≤ 153.5

/-- R11: the conversion to a byte truncates toward zero and clamps, on every rational. -/
def Obligations.ByteConversionTruncatesAndClamps : Prop :=
  ∀ x : Rat,
    (0 ≤ x → trunc x = ⌊x⌋) ∧ (x ≤ 0 → trunc x = ⌈x⌉) ∧
    (0 ≤ x → x < 256 → ((toByte x).toNat : Int) = ⌊x⌋) ∧
    (x < 0 → toByte x = 0) ∧ (256 ≤ x → toByte x = 255)

/-! ### Geometry -/

/-- R112: the coordinates of a work-item lie in the frame and its chroma coordinates in the chroma plane (R42). -/
def Obligations.WorkItemCoordinatesLieInTheFrame : Prop :=
  ∀ w h g : Nat, g < w * h →
    let x := workItem w g
    x.gid = g ∧ x.row = g / w ∧ x.col = g - w * x.row ∧ x.row < h ∧ x.col < w ∧ g = x.row * w + x.col ∧
      x.crow = x.row / 2 ∧ x.ccol = x.col / 2 ∧ (x.rep = true ↔ x.row % 2 = 0 ∧ x.col % 2 = 0) ∧
      x.crow < (h + 1) / 2 ∧ x.ccol < (w + 1) / 2

/-- R132: every chroma position has exactly one representative, the luma pixel at twice its coordinates, for odd
dimensions too. -/
def Obligations.EachChromaSampleHasOneRepresentative : Prop :=
  ∀ w h cr cc : Nat, cr < (h + 1) / 2 → cc < (w + 1) / 2 →
    2 * cr < h ∧ 2 * cc < w ∧
    ∀ g, (g < w * h ∧ (workItem w g).rep = true ∧ (workItem w g).crow = cr ∧ (workItem w g).ccol = cc) ↔
      g = 2 * cr * w + 2 * cc

/-- R73 (c) with R69: a plane, or an interleaved frame, whose stride is at least its row's byte count has distinct addresses
at distinct positions wherever it lies, across the top of the address space too, unless the span from its first to its
last byte exceeds the address space, so that it could wrap onto itself. -/
def Obligations.PlaneThatDoesNotWrapIsInjective : Prop :=
  ∀ (p : PlaneRegs) (rows cols : Nat),
    (cols ≤ p.stride.toNat → (rows - 1) * p.stride.toNat + cols ≤ 2 ^ 32 → (planeRegion p rows cols).Nodup) ∧
    (4 * cols ≤ p.stride.toNat → (rows - 1) * p.stride.toNat + 4 * cols ≤ 2 ^ 32 → (pixelRegion p rows cols).Nodup)

/-! ### The register port -/

/-- R96 with R22: while the engine is idle a write to a register, STATUS and CMD apart, stores the bits of its defined
fields, changes no other register, and nothing else but READY (R38). -/
def Obligations.RegisterWritesStoreTheirFields : Prop :=
  ∀ (s : State) (off : BitVec 8) (w : Word) (r : RegName) (rest : List Event),
    s.agenda = .regWrite off w :: rest → s.running = none → regAt off.toNat = some r → r ≠ .cmd → r ≠ .status →
    ∃ t, step s = .next t ∧
      readReg r t =
        (if r = .width ∨ r = .height then w &&& 0xFFFF#32
        else if r = .format then w &&& 0xFF#32
        else if r = .mode ∨ r = .ien then w &&& 3#32
        else if r = .id ∨ r = .statMin ∨ r = .statMax ∨ r = .gid then readReg r s
        else w) ∧
      (∀ r' : RegName, r' ≠ r → r' ≠ .status → readReg r' t = readReg r' s) ∧
      t = { s with
        agenda := rest, regs := t.regs
        status := { s.status with
          ready := if r = .format ∨ r = .mode ∨ r = .width ∨ r = .height then false else s.status.ready } }

/-- R37: during BUSY a write to any offset but STATUS, IEN and ID is dropped and sets BWR; a write to ID is ignored, IEN
and STATUS are written; reads are always allowed. -/
def Obligations.WritesDuringBusyAreDropped : Prop :=
  ∀ (s : State) (off : BitVec 8) (w : Word) (rest : List Event), s.running ≠ none → off.toNat % 4 = 0 →
    (s.agenda = .regWrite off w :: rest → off ≠ 0x08 → off ≠ 0x0C → off ≠ 0x00 →
      step s = .next { s with agenda := rest, status := { s.status with bwr := true } }) ∧
    (s.agenda = .regWrite 0x00 w :: rest → step s = .next { s with agenda := rest }) ∧
    (s.agenda = .regWrite 0x0C w :: rest →
      step s = .next { s with
        agenda := rest, regs := { s.regs with doneIe := w.getLsbD 0, errIe := w.getLsbD 1 } }) ∧
    (s.agenda = .regRead off :: rest →
      step s = .next { s with agenda := rest, rdata := some (portRead off s) })

/-- R26: a write to STATUS clears DONE by bit 1, BWR by bit 6 and the whole of ERR by bit 8, whether or not BUSY is 1, and
does nothing else. -/
def Obligations.StatusWriteClearsItsBits : Prop :=
  ∀ (s : State) (w : Word) (rest : List Event), s.agenda = .regWrite 0x08 w :: rest →
    step s = .next { s with
      agenda := rest
      status := { s.status with
        done := if w.getLsbD 1 = true then false else s.status.done
        bwr := if w.getLsbD 6 = true then false else s.status.bwr
        err := if w.getLsbD 8 = true then none else s.status.err } }

/-- R38: an accepted write to FORMAT, MODE, WIDTH or HEIGHT clears READY, whatever the value; frame commands are then
refused with NOT_READY. -/
def Obligations.GeometryWriteClearsReady : Prop :=
  ∀ (s : State) (off : BitVec 8) (w : Word) (rest : List Event), s.agenda = .regWrite off w :: rest →
    s.running = none → (off = 0x10 ∨ off = 0x14 ∨ off = 0x20 ∨ off = 0x24) →
    ∃ t, step s = .next t ∧ t.status.ready = false ∧
      ∀ i, isFrame i = true → t.status.err = none →
        exec i t = .next { t with status := { t.status with done := false, err := some .notReady } }

/-- R25 with the codes of R190: the word a read of STATUS returns, bit by bit. -/
def Obligations.StatusWordLayout : Prop :=
  ∀ s : State,
    s.statusWord.getLsbD 0 = s.running.isSome ∧ s.statusWord.getLsbD 1 = s.status.done ∧
    s.statusWord.getLsbD 2 = s.status.ready ∧ s.statusWord.getLsbD 3 = s.status.wbv ∧
    s.statusWord.getLsbD 4 = s.status.stv ∧ s.statusWord.getLsbD 5 = s.smooth.isSome ∧
    s.statusWord.getLsbD 6 = s.status.bwr ∧ s.statusWord.getLsbD 7 = false ∧
    s.statusWord.extractLsb' 16 16 = 0#16 ∧
    s.statusWord.extractLsb' 8 8 =
      (match s.status.err with
      | none => 0#8
      | some .unsupportedFormat => 1#8
      | some .deviceUnavailable => 2#8
      | some .dispatch => 3#8
      | some .illegalCmd => 4#8
      | some .notReady => 5#8
      | some .geometry => 6#8
      | some .stride => 7#8
      | some .sequence => 8#8)

/-- R43: irq is high exactly when an enabled source is pending. -/
def Obligations.InterruptIsALevelOfState : Prop :=
  ∀ s : State, s.irq = true ↔
    (s.regs.doneIe = true ∧ s.status.done = true) ∨ (s.regs.errIe = true ∧ s.status.err ≠ none)

/-- R36: a reserved offset reads as zero and ignores writes, which during BUSY set BWR all the same. -/
def Obligations.ReservedOffsetsReadZero : Prop :=
  ∀ (s : State) (off : BitVec 8) (w : Word) (rest : List Event), off.toNat % 4 = 0 →
    (off = 0x1C ∨ 0x6C ≤ off.toNat) →
    portRead off s = 0 ∧
    (s.agenda = .regWrite off w :: rest →
      (s.running = none → step s = .next { s with agenda := rest }) ∧
      (s.running ≠ none → step s = .next { s with agenda := rest, status := { s.status with bwr := true } }))

/-- A register transaction at an offset that does not exist at the port (R21) is a fault, the model's choice of log 13; at
one that exists a read returns the register's word and changes nothing else. -/
def Obligations.PortTransactionsAreWholeWords : Prop :=
  ∀ (s : State) (off : BitVec 8) (w : Word) (rest : List Event),
    (off.toNat % 4 ≠ 0 → s.agenda = .regWrite off w :: rest ∨ s.agenda = .regRead off :: rest →
      step s = .fault .noSuchOffset) ∧
    (off.toNat % 4 = 0 → s.agenda = .regRead off :: rest →
      step s = .next { s with agenda := rest, rdata := some (portRead off s) })

/-- The host's own accesses to frame memory: that between commands they succeed at every address, whatever the platform's
map says of a command's accesses, is the model's choice of log 15 (the spec has the host write and read frame memory and
says nothing of a failure), and the refusal of its accesses to a running command's footprints (U11) that of log 12. -/
def Obligations.HostOwnsMemoryBetweenCommands : Prop :=
  ∀ (s : State) (a : Word) (v : Byte) (rest : List Event),
    (s.running = none → s.agenda = .memWrite a v :: rest →
      ∃ t, step s = .next t ∧ t = { s with agenda := rest, mem := t.mem } ∧
        ∀ b, t.mem.read b = if b = a.toNat then v else s.mem.read b) ∧
    (s.running = none → s.agenda = .memRead a :: rest →
      step s = .next { s with agenda := rest, mdata := some (s.mem.read a.toNat) }) ∧
    (∀ i, s.running = some i → s.agenda = .memWrite a v :: rest →
      (a.toNat ∈ readFootprint i s ∨ a.toNat ∈ writeFootprint i s) → step s = .refused .hostTouchesFootprint) ∧
    (∀ i, s.running = some i → s.agenda = .memRead a :: rest → a.toNat ∈ writeFootprint i s →
      step s = .refused .hostTouchesFootprint)

/-- R22 written out: the offset of every register, none at 0x1C and from 0x6C on (R36), the geometry scalars and then each
base with its stride, in source and destination groups, in the binding order of R100; and the field of the machine that
a read of each offset returns. -/
def Obligations.RegisterMapIsWrittenOut : Prop :=
  regAt 0x00 = some .id ∧ regAt 0x04 = some .cmd ∧ regAt 0x08 = some .status ∧ regAt 0x0C = some .ien ∧
  regAt 0x10 = some .format ∧ regAt 0x14 = some .mode ∧ regAt 0x18 = some .wgsize ∧ regAt 0x20 = some .width ∧
  regAt 0x24 = some .height ∧ regAt 0x28 = some .srcYBase ∧ regAt 0x2C = some .srcYStride ∧
  regAt 0x30 = some .srcABase ∧ regAt 0x34 = some .srcAStride ∧ regAt 0x38 = some .srcBBase ∧
  regAt 0x3C = some .srcBStride ∧ regAt 0x40 = some .dstYBase ∧ regAt 0x44 = some .dstYStride ∧
  regAt 0x48 = some .dstABase ∧ regAt 0x4C = some .dstAStride ∧ regAt 0x50 = some .dstBBase ∧
  regAt 0x54 = some .dstBStride ∧ regAt 0x58 = some .dstIBase ∧ regAt 0x5C = some .dstIStride ∧
  regAt 0x60 = some .statMin ∧ regAt 0x64 = some .statMax ∧ regAt 0x68 = some .gid ∧
  regAt 0x1C = none ∧ (∀ off, 0x6C ≤ off → regAt off = none) ∧
  ∀ s : State,
    portRead 0x00 s = 0x434C4D01#32 ∧ portRead 0x04 s = 0 ∧ portRead 0x08 s = s.statusWord ∧
    (portRead 0x0C s).toNat = s.regs.doneIe.toNat + 2 * s.regs.errIe.toNat ∧
    (portRead 0x10 s).toNat = s.regs.fmt.toNat ∧
    (portRead 0x14 s).toNat = s.regs.engine.toNat + 2 * s.regs.evenChk.toNat ∧ portRead 0x18 s = s.regs.wgsize ∧
    (portRead 0x20 s).toNat = s.regs.width.toNat ∧ (portRead 0x24 s).toNat = s.regs.height.toNat ∧
    portRead 0x28 s = s.regs.srcY.base ∧ portRead 0x2C s = s.regs.srcY.stride ∧ portRead 0x30 s = s.regs.srcA.base ∧
    portRead 0x34 s = s.regs.srcA.stride ∧ portRead 0x38 s = s.regs.srcB.base ∧
    portRead 0x3C s = s.regs.srcB.stride ∧ portRead 0x40 s = s.regs.dstY.base ∧
    portRead 0x44 s = s.regs.dstY.stride ∧ portRead 0x48 s = s.regs.dstA.base ∧
    portRead 0x4C s = s.regs.dstA.stride ∧ portRead 0x50 s = s.regs.dstB.base ∧
    portRead 0x54 s = s.regs.dstB.stride ∧ portRead 0x58 s = s.regs.dstI.base ∧
    portRead 0x5C s = s.regs.dstI.stride ∧ (portRead 0x60 s).toNat = s.statMin.toNat ∧
    (portRead 0x64 s).toNat = s.statMax.toNat ∧ portRead 0x68 s = s.gid
end

