-- ==== Sys2Proof/Laws/Memory.lean ====
section
/-! SUPPORT. Laws of the sparse storage and of frame memory: what a read after a write gives, and that every operation
keeps the canonical form. -/

namespace Sys2Proof.Machine

variable {α : Type}

@[simp] theorem sparseFind_nil (a : Nat) : sparseFind ([] : List (Nat × α)) a = none := rfl

theorem sparseFind_cons (k a : Nat) (v : α) (r : List (Nat × α)) :
    sparseFind ((k, v) :: r) a = if k = a then some v else sparseFind r a := rfl

@[simp] theorem sparseFind_insert_same (l : List (Nat × α)) (a : Nat) (v : α) :
    sparseFind (sparseInsert l a v) a = some v := by
  induction l with
  | nil => simp [sparseInsert, sparseFind]
  | cons p r ih =>
    obtain ⟨k, w⟩ := p
    simp only [sparseInsert]
    split
    · simp [sparseFind]
    · split
      · simp [sparseFind]
      · next h => rw [sparseFind_cons, if_neg (fun e => h e.symm), ih]

theorem sparseFind_insert_other (l : List (Nat × α)) {a b : Nat} (v : α) (h : a ≠ b) :
    sparseFind (sparseInsert l a v) b = sparseFind l b := by
  induction l with
  | nil => simp [sparseInsert, sparseFind, h]
  | cons p r ih =>
    obtain ⟨k, w⟩ := p
    simp only [sparseInsert]
    split
    · simp [sparseFind, h]
    · split
      · next hk => subst hk; simp [sparseFind, h]
      · simp [sparseFind, ih]

@[simp] theorem sparseFind_erase_same (l : List (Nat × α)) (a : Nat) :
    sparseFind (sparseErase l a) a = none := by
  induction l with
  | nil => rfl
  | cons p r ih =>
    obtain ⟨k, w⟩ := p
    simp only [sparseErase]
    split
    · exact ih
    · next h => simp [sparseFind, h, ih]

theorem sparseFind_erase_other (l : List (Nat × α)) {a b : Nat} (h : a ≠ b) :
    sparseFind (sparseErase l a) b = sparseFind l b := by
  induction l with
  | nil => rfl
  | cons p r ih =>
    obtain ⟨k, w⟩ := p
    simp only [sparseErase]
    split
    · next hk => subst hk; simp [sparseFind, h, ih]
    · simp [sparseFind, ih]

/-- Reading the byte just written (R68: a write followed by a read returns the written value). -/
@[simp] theorem Memory.read_write_same (m : Memory) (a : Nat) (v : Byte) : (m.write a v).read a = v := by
  unfold Memory.read Memory.write
  split
  · next h => simp [h]
  · simp

/-- A write leaves every other address alone. -/
theorem Memory.read_write_other (m : Memory) {a b : Nat} (v : Byte) (h : a ≠ b) :
    (m.write a v).read b = m.read b := by
  unfold Memory.read Memory.write
  split
  · rw [sparseFind_erase_other m h]
  · rw [sparseFind_insert_other m v h]

theorem Memory.read_write (m : Memory) (a b : Nat) (v : Byte) :
    (m.write a v).read b = if a = b then v else m.read b := by
  split
  · next h => subst h; exact Memory.read_write_same m a v
  · next h => exact Memory.read_write_other m v h

theorem sparseRising_cons (lo : Option Nat) (k : Nat) (v : α) (r : List (Nat × α)) :
    sparseRising lo ((k, v) :: r) = true ↔ (∀ b, lo = some b → b < k) ∧ sparseRising (some k) r = true := by
  cases lo <;> simp [sparseRising]

/-- A bound on the first key may be lowered or dropped. -/
theorem sparseRising_weaken {lo lo' : Option Nat} {l : List (Nat × α)}
    (h : ∀ b, lo' = some b → ∃ c, lo = some c ∧ b ≤ c) (hl : sparseRising lo l = true) :
    sparseRising lo' l = true := by
  cases l with
  | nil => rfl
  | cons p r =>
    obtain ⟨k, w⟩ := p
    rw [sparseRising_cons] at hl ⊢
    refine ⟨fun b hb => ?_, hl.2⟩
    obtain ⟨c, hc, hbc⟩ := h b hb
    exact lt_of_le_of_lt hbc (hl.1 c hc)

/-- Inserting keeps the keys rising. -/
theorem sparseRising_insert (l : List (Nat × α)) (a : Nat) (v : α) (lo : Option Nat)
    (ha : ∀ b, lo = some b → b < a) (hl : sparseRising lo l = true) :
    sparseRising lo (sparseInsert l a v) = true := by
  induction l generalizing lo with
  | nil => rw [sparseInsert, sparseRising_cons]; exact ⟨ha, rfl⟩
  | cons p r ih =>
    obtain ⟨k, w⟩ := p
    rw [sparseRising_cons] at hl
    simp only [sparseInsert]
    split
    · next h => rw [sparseRising_cons, sparseRising_cons]; exact ⟨ha, ⟨fun b hb => by cases hb; exact h, hl.2⟩⟩
    · split
      · next h => subst h; rw [sparseRising_cons]; exact ⟨ha, hl.2⟩
      · next h1 h2 =>
        rw [sparseRising_cons]
        exact ⟨hl.1, ih (some k) (fun b hb => by cases hb; omega) hl.2⟩

/-- Erasing keeps the keys rising. -/
theorem sparseRising_erase (l : List (Nat × α)) (a : Nat) (lo : Option Nat)
    (hl : sparseRising lo l = true) : sparseRising lo (sparseErase l a) = true := by
  induction l generalizing lo with
  | nil => rfl
  | cons p r ih =>
    obtain ⟨k, w⟩ := p
    rw [sparseRising_cons] at hl
    simp only [sparseErase]
    split
    · refine ih lo (sparseRising_weaken (fun b hb => ⟨k, rfl, le_of_lt (hl.1 b hb)⟩) hl.2)
    · rw [sparseRising_cons]; exact ⟨hl.1, ih (some k) hl.2⟩

theorem mem_sparseInsert {l : List (Nat × α)} {a : Nat} {v : α} {c : Nat × α}
    (h : c ∈ sparseInsert l a v) : c = (a, v) ∨ c ∈ l := by
  induction l with
  | nil => simpa [sparseInsert] using h
  | cons p r ih =>
    obtain ⟨k, w⟩ := p
    simp only [sparseInsert] at h
    split at h
    · simpa using h
    · split at h
      · rcases List.mem_cons.1 h with h | h
        · exact .inl h
        · exact .inr (List.mem_cons_of_mem _ h)
      · rcases List.mem_cons.1 h with h | h
        · exact .inr (by simp [h])
        · rcases ih h with h | h
          · exact .inl h
          · exact .inr (List.mem_cons_of_mem _ h)

theorem mem_sparseErase {l : List (Nat × α)} {a : Nat} {c : Nat × α}
    (h : c ∈ sparseErase l a) : c ∈ l := by
  induction l with
  | nil => exact h
  | cons p r ih =>
    obtain ⟨k, w⟩ := p
    simp only [sparseErase] at h
    split at h
    · exact List.mem_cons_of_mem _ (ih h)
    · rcases List.mem_cons.1 h with h | h
      · simp [h]
      · exact List.mem_cons_of_mem _ (ih h)

theorem Memory.wf_iff (m : Memory) :
    m.wf = true ↔ sparseRising none m = true ∧ ∀ c ∈ m, c.1 < 2 ^ 32 ∧ c.2 ≠ memDefault := by
  simp [Memory.wf, List.all_eq_true]

/-- A write inside the address space keeps the canonical form. -/
theorem Memory.write_wf (m : Memory) (a : Nat) (v : Byte) (ha : a < 2 ^ 32) (h : m.wf = true) :
    (m.write a v).wf = true := by
  rw [Memory.wf_iff] at h ⊢
  unfold Memory.write
  split
  · exact ⟨sparseRising_erase m a none h.1, fun c hc => h.2 c (mem_sparseErase hc)⟩
  · next hv =>
    refine ⟨sparseRising_insert m a v none (by simp) h.1, fun c hc => ?_⟩
    rcases mem_sparseInsert hc with rfl | hc
    · exact ⟨ha, hv⟩
    · exact h.2 c hc

/-- The memory of the reset state is in canonical form. -/
theorem Memory.reset_wf : State.reset.mem.wf = true := rfl

/-- A key at or below the bound of a rising list is not in it. -/
theorem sparseFind_of_le {l : List (Nat × α)} {k a : Nat} (h : sparseRising (some k) l = true) (ha : a ≤ k) :
    sparseFind l a = none := by
  induction l generalizing k with
  | nil => rfl
  | cons p r ih =>
    obtain ⟨j, w⟩ := p
    rw [sparseRising_cons] at h
    have hj := h.1 k rfl
    rw [sparseFind_cons, if_neg (by omega)]
    exact ih h.2 (by omega)

/-- Two rising lists that hold the same values are the same list: equal contents are equal data. -/
theorem sparse_ext {l l' : List (Nat × α)} (lo : Option Nat) (h : sparseRising lo l = true)
    (h' : sparseRising lo l' = true) (he : ∀ a, sparseFind l a = sparseFind l' a) : l = l' := by
  induction l generalizing lo l' with
  | nil =>
    cases l' with
    | nil => rfl
    | cons p r => have := he p.1; simp [sparseFind] at this
  | cons p r ih =>
    obtain ⟨k, v⟩ := p
    cases l' with
    | nil => have := he k; simp [sparseFind] at this
    | cons p' r' =>
      obtain ⟨k', v'⟩ := p'
      rw [sparseRising_cons] at h h'
      have hk : k = k' := by
        rcases Nat.lt_trichotomy k k' with hlt | heq | hgt
        · have := he k
          rw [sparseFind_cons, if_pos rfl, sparseFind_cons, if_neg (by omega),
            sparseFind_of_le h'.2 (by omega)] at this
          exact absurd this (by simp)
        · exact heq
        · have := he k'
          rw [sparseFind_cons, if_neg (by omega), sparseFind_of_le h.2 (by omega), sparseFind_cons,
            if_pos rfl] at this
          exact absurd this (by simp)
      subst hk
      have hv := he k
      rw [sparseFind_cons, sparseFind_cons, if_pos rfl, if_pos rfl] at hv
      cases hv
      congr 1
      refine ih (some k) h.2 h'.2 fun a => ?_
      have := he a
      rw [sparseFind_cons, sparseFind_cons] at this
      split at this
      · next e => subst e; rw [sparseFind_of_le h.2 (le_refl _), sparseFind_of_le h'.2 (le_refl _)]
      · exact this

theorem sparseFind_mem {l : List (Nat × α)} {a : Nat} {v : α} (h : sparseFind l a = some v) : (a, v) ∈ l := by
  induction l with
  | nil => simp at h
  | cons p r ih =>
    obtain ⟨k, w⟩ := p
    rw [sparseFind_cons] at h
    split at h
    · next e => cases h; subst e; simp
    · exact List.mem_cons_of_mem _ (ih h)

/-- Canonical memories that read alike are equal. -/
theorem Memory.ext_read {m m' : Memory} (h : m.wf = true) (h' : m'.wf = true)
    (he : ∀ a, m.read a = m'.read a) : m = m' := by
  rw [Memory.wf_iff] at h h'
  refine sparse_ext none h.1 h'.1 fun a => ?_
  have hr := he a
  unfold Memory.read at hr
  rcases hf : sparseFind m a with _ | v <;> rcases hf' : sparseFind m' a with _ | v'
  · rfl
  · rw [hf, hf'] at hr
    exact absurd hr.symm (h'.2 _ (sparseFind_mem hf')).2
  · rw [hf, hf'] at hr
    exact absurd hr (h.2 _ (sparseFind_mem hf)).2
  · rw [hf, hf'] at hr
    simpa using hr

end Sys2Proof.Machine
end

