-- ==== Sys2Proof/Laws/State.lean ====
section
/-! SUPPORT. One lemma per field per named update of the state, each true by unfolding, so that no later proof unfolds a
record update. -/

namespace Sys2Proof.Machine

variable (s : State)

@[simp] theorem onStatus_cfg (f : Status → Status) : (onStatus f s).cfg = s.cfg := rfl
@[simp] theorem onStatus_regs (f : Status → Status) : (onStatus f s).regs = s.regs := rfl
@[simp] theorem onStatus_status (f : Status → Status) : (onStatus f s).status = f s.status := rfl
@[simp] theorem onStatus_running (f : Status → Status) : (onStatus f s).running = s.running := rfl
@[simp] theorem onStatus_gid (f : Status → Status) : (onStatus f s).gid = s.gid := rfl
@[simp] theorem onStatus_statMin (f : Status → Status) : (onStatus f s).statMin = s.statMin := rfl
@[simp] theorem onStatus_statMax (f : Status → Status) : (onStatus f s).statMax = s.statMax := rfl
@[simp] theorem onStatus_smooth (f : Status → Status) : (onStatus f s).smooth = s.smooth := rfl
@[simp] theorem onStatus_wbuf (f : Status → Status) : (onStatus f s).wbuf = s.wbuf := rfl
@[simp] theorem onStatus_mem (f : Status → Status) : (onStatus f s).mem = s.mem := rfl
@[simp] theorem onStatus_todo (f : Status → Status) : (onStatus f s).todo = s.todo := rfl
@[simp] theorem onStatus_pick (f : Status → Status) : (onStatus f s).pick = s.pick := rfl
@[simp] theorem onStatus_agenda (f : Status → Status) : (onStatus f s).agenda = s.agenda := rfl
@[simp] theorem onStatus_rdata (f : Status → Status) : (onStatus f s).rdata = s.rdata := rfl
@[simp] theorem onStatus_mdata (f : Status → Status) : (onStatus f s).mdata = s.mdata := rfl
@[simp] theorem onStatus_freeCtr (f : Status → Status) : (onStatus f s).freeCtr = s.freeCtr := rfl

@[simp] theorem raiseError_cfg (e : ErrorKind) : (raiseError e s).cfg = s.cfg := rfl
@[simp] theorem raiseError_regs (e : ErrorKind) : (raiseError e s).regs = s.regs := rfl
@[simp] theorem raiseError_status (e : ErrorKind) : (raiseError e s).status = { s.status with err := s.status.err.or (some e), done := false } := rfl
@[simp] theorem raiseError_running (e : ErrorKind) : (raiseError e s).running = none := rfl
@[simp] theorem raiseError_gid (e : ErrorKind) : (raiseError e s).gid = s.gid := rfl
@[simp] theorem raiseError_statMin (e : ErrorKind) : (raiseError e s).statMin = s.statMin := rfl
@[simp] theorem raiseError_statMax (e : ErrorKind) : (raiseError e s).statMax = s.statMax := rfl
@[simp] theorem raiseError_smooth (e : ErrorKind) : (raiseError e s).smooth = s.smooth := rfl
@[simp] theorem raiseError_wbuf (e : ErrorKind) : (raiseError e s).wbuf = s.wbuf := rfl
@[simp] theorem raiseError_mem (e : ErrorKind) : (raiseError e s).mem = s.mem := rfl
@[simp] theorem raiseError_todo (e : ErrorKind) : (raiseError e s).todo = s.todo := rfl
@[simp] theorem raiseError_pick (e : ErrorKind) : (raiseError e s).pick = s.pick := rfl
@[simp] theorem raiseError_agenda (e : ErrorKind) : (raiseError e s).agenda = s.agenda := rfl
@[simp] theorem raiseError_rdata (e : ErrorKind) : (raiseError e s).rdata = s.rdata := rfl
@[simp] theorem raiseError_mdata (e : ErrorKind) : (raiseError e s).mdata = s.mdata := rfl
@[simp] theorem raiseError_freeCtr (e : ErrorKind) : (raiseError e s).freeCtr = s.freeCtr := rfl

@[simp] theorem wbufWrite_cfg (i : Nat) (p : Pixel) : (wbufWrite i p s).cfg = s.cfg := rfl
@[simp] theorem wbufWrite_regs (i : Nat) (p : Pixel) : (wbufWrite i p s).regs = s.regs := rfl
@[simp] theorem wbufWrite_status (i : Nat) (p : Pixel) : (wbufWrite i p s).status = s.status := rfl
@[simp] theorem wbufWrite_running (i : Nat) (p : Pixel) : (wbufWrite i p s).running = s.running := rfl
@[simp] theorem wbufWrite_gid (i : Nat) (p : Pixel) : (wbufWrite i p s).gid = s.gid := rfl
@[simp] theorem wbufWrite_statMin (i : Nat) (p : Pixel) : (wbufWrite i p s).statMin = s.statMin := rfl
@[simp] theorem wbufWrite_statMax (i : Nat) (p : Pixel) : (wbufWrite i p s).statMax = s.statMax := rfl
@[simp] theorem wbufWrite_smooth (i : Nat) (p : Pixel) : (wbufWrite i p s).smooth = s.smooth := rfl
@[simp] theorem wbufWrite_wbuf (i : Nat) (p : Pixel) : (wbufWrite i p s).wbuf = sparseInsert s.wbuf i p := rfl
@[simp] theorem wbufWrite_mem (i : Nat) (p : Pixel) : (wbufWrite i p s).mem = s.mem := rfl
@[simp] theorem wbufWrite_todo (i : Nat) (p : Pixel) : (wbufWrite i p s).todo = s.todo := rfl
@[simp] theorem wbufWrite_pick (i : Nat) (p : Pixel) : (wbufWrite i p s).pick = s.pick := rfl
@[simp] theorem wbufWrite_agenda (i : Nat) (p : Pixel) : (wbufWrite i p s).agenda = s.agenda := rfl
@[simp] theorem wbufWrite_rdata (i : Nat) (p : Pixel) : (wbufWrite i p s).rdata = s.rdata := rfl
@[simp] theorem wbufWrite_mdata (i : Nat) (p : Pixel) : (wbufWrite i p s).mdata = s.mdata := rfl
@[simp] theorem wbufWrite_freeCtr (i : Nat) (p : Pixel) : (wbufWrite i p s).freeCtr = s.freeCtr := rfl

@[simp] theorem wbufForget_cfg : (wbufForget s).cfg = s.cfg := rfl
@[simp] theorem wbufForget_regs : (wbufForget s).regs = s.regs := rfl
@[simp] theorem wbufForget_status : (wbufForget s).status = s.status := rfl
@[simp] theorem wbufForget_running : (wbufForget s).running = s.running := rfl
@[simp] theorem wbufForget_gid : (wbufForget s).gid = s.gid := rfl
@[simp] theorem wbufForget_statMin : (wbufForget s).statMin = s.statMin := rfl
@[simp] theorem wbufForget_statMax : (wbufForget s).statMax = s.statMax := rfl
@[simp] theorem wbufForget_smooth : (wbufForget s).smooth = s.smooth := rfl
@[simp] theorem wbufForget_wbuf : (wbufForget s).wbuf = [] := rfl
@[simp] theorem wbufForget_mem : (wbufForget s).mem = s.mem := rfl
@[simp] theorem wbufForget_todo : (wbufForget s).todo = s.todo := rfl
@[simp] theorem wbufForget_pick : (wbufForget s).pick = s.pick := rfl
@[simp] theorem wbufForget_agenda : (wbufForget s).agenda = s.agenda := rfl
@[simp] theorem wbufForget_rdata : (wbufForget s).rdata = s.rdata := rfl
@[simp] theorem wbufForget_mdata : (wbufForget s).mdata = s.mdata := rfl
@[simp] theorem wbufForget_freeCtr : (wbufForget s).freeCtr = s.freeCtr + 1 := rfl

@[simp] theorem scrambleFootprint_cfg (i : Instr) : (scrambleFootprint i s).cfg = s.cfg := rfl
@[simp] theorem scrambleFootprint_regs (i : Instr) : (scrambleFootprint i s).regs = s.regs := rfl
@[simp] theorem scrambleFootprint_status (i : Instr) : (scrambleFootprint i s).status = s.status := rfl
@[simp] theorem scrambleFootprint_running (i : Instr) : (scrambleFootprint i s).running = s.running := rfl
@[simp] theorem scrambleFootprint_gid (i : Instr) : (scrambleFootprint i s).gid = s.gid := rfl
@[simp] theorem scrambleFootprint_statMin (i : Instr) : (scrambleFootprint i s).statMin = s.statMin := rfl
@[simp] theorem scrambleFootprint_statMax (i : Instr) : (scrambleFootprint i s).statMax = s.statMax := rfl
@[simp] theorem scrambleFootprint_smooth (i : Instr) : (scrambleFootprint i s).smooth = s.smooth := rfl
@[simp] theorem scrambleFootprint_wbuf (i : Instr) : (scrambleFootprint i s).wbuf = s.wbuf := rfl
@[simp] theorem scrambleFootprint_mem (i : Instr) : (scrambleFootprint i s).mem = scrambleMem s.freeCtr (writeFootprint i s) s.mem := rfl
@[simp] theorem scrambleFootprint_todo (i : Instr) : (scrambleFootprint i s).todo = s.todo := rfl
@[simp] theorem scrambleFootprint_pick (i : Instr) : (scrambleFootprint i s).pick = s.pick := rfl
@[simp] theorem scrambleFootprint_agenda (i : Instr) : (scrambleFootprint i s).agenda = s.agenda := rfl
@[simp] theorem scrambleFootprint_rdata (i : Instr) : (scrambleFootprint i s).rdata = s.rdata := rfl
@[simp] theorem scrambleFootprint_mdata (i : Instr) : (scrambleFootprint i s).mdata = s.mdata := rfl
@[simp] theorem scrambleFootprint_freeCtr (i : Instr) : (scrambleFootprint i s).freeCtr = s.freeCtr + 1 := rfl

@[simp] theorem itemDone_cfg (g : Nat) : (itemDone g s).cfg = s.cfg := rfl
@[simp] theorem itemDone_regs (g : Nat) : (itemDone g s).regs = s.regs := rfl
@[simp] theorem itemDone_status (g : Nat) : (itemDone g s).status = s.status := rfl
@[simp] theorem itemDone_running (g : Nat) : (itemDone g s).running = s.running := rfl
@[simp] theorem itemDone_gid (g : Nat) : (itemDone g s).gid = s.gid + 1 := rfl
@[simp] theorem itemDone_statMin (g : Nat) : (itemDone g s).statMin = s.statMin := rfl
@[simp] theorem itemDone_statMax (g : Nat) : (itemDone g s).statMax = s.statMax := rfl
@[simp] theorem itemDone_smooth (g : Nat) : (itemDone g s).smooth = s.smooth := rfl
@[simp] theorem itemDone_wbuf (g : Nat) : (itemDone g s).wbuf = s.wbuf := rfl
@[simp] theorem itemDone_mem (g : Nat) : (itemDone g s).mem = s.mem := rfl
@[simp] theorem itemDone_todo (g : Nat) : (itemDone g s).todo = s.todo.erase g := rfl
@[simp] theorem itemDone_pick (g : Nat) : (itemDone g s).pick = s.pick := rfl
@[simp] theorem itemDone_agenda (g : Nat) : (itemDone g s).agenda = s.agenda := rfl
@[simp] theorem itemDone_rdata (g : Nat) : (itemDone g s).rdata = s.rdata := rfl
@[simp] theorem itemDone_mdata (g : Nat) : (itemDone g s).mdata = s.mdata := rfl
@[simp] theorem itemDone_freeCtr (g : Nat) : (itemDone g s).freeCtr = s.freeCtr := rfl

@[simp] theorem complete_cfg : (complete s).cfg = s.cfg := rfl
@[simp] theorem complete_regs : (complete s).regs = s.regs := rfl
@[simp] theorem complete_status : (complete s).status = { s.status with done := true } := rfl
@[simp] theorem complete_running : (complete s).running = none := rfl
@[simp] theorem complete_gid : (complete s).gid = s.gid := rfl
@[simp] theorem complete_statMin : (complete s).statMin = s.statMin := rfl
@[simp] theorem complete_statMax : (complete s).statMax = s.statMax := rfl
@[simp] theorem complete_smooth : (complete s).smooth = s.smooth := rfl
@[simp] theorem complete_wbuf : (complete s).wbuf = s.wbuf := rfl
@[simp] theorem complete_mem : (complete s).mem = s.mem := rfl
@[simp] theorem complete_todo : (complete s).todo = s.todo := rfl
@[simp] theorem complete_pick : (complete s).pick = s.pick := rfl
@[simp] theorem complete_agenda : (complete s).agenda = s.agenda := rfl
@[simp] theorem complete_rdata : (complete s).rdata = s.rdata := rfl
@[simp] theorem complete_mdata : (complete s).mdata = s.mdata := rfl
@[simp] theorem complete_freeCtr : (complete s).freeCtr = s.freeCtr := rfl

@[simp] theorem accumulate_cfg (y : Byte) : (accumulate y s).cfg = s.cfg := rfl
@[simp] theorem accumulate_regs (y : Byte) : (accumulate y s).regs = s.regs := rfl
@[simp] theorem accumulate_status (y : Byte) : (accumulate y s).status = s.status := rfl
@[simp] theorem accumulate_running (y : Byte) : (accumulate y s).running = s.running := rfl
@[simp] theorem accumulate_gid (y : Byte) : (accumulate y s).gid = s.gid := rfl
@[simp] theorem accumulate_statMin (y : Byte) : (accumulate y s).statMin = if y.toNat < s.statMin.toNat then y else s.statMin := rfl
@[simp] theorem accumulate_statMax (y : Byte) : (accumulate y s).statMax = if s.statMax.toNat < y.toNat then y else s.statMax := rfl
@[simp] theorem accumulate_smooth (y : Byte) : (accumulate y s).smooth = s.smooth := rfl
@[simp] theorem accumulate_wbuf (y : Byte) : (accumulate y s).wbuf = s.wbuf := rfl
@[simp] theorem accumulate_mem (y : Byte) : (accumulate y s).mem = s.mem := rfl
@[simp] theorem accumulate_todo (y : Byte) : (accumulate y s).todo = s.todo := rfl
@[simp] theorem accumulate_pick (y : Byte) : (accumulate y s).pick = s.pick := rfl
@[simp] theorem accumulate_agenda (y : Byte) : (accumulate y s).agenda = s.agenda := rfl
@[simp] theorem accumulate_rdata (y : Byte) : (accumulate y s).rdata = s.rdata := rfl
@[simp] theorem accumulate_mdata (y : Byte) : (accumulate y s).mdata = s.mdata := rfl
@[simp] theorem accumulate_freeCtr (y : Byte) : (accumulate y s).freeCtr = s.freeCtr := rfl

@[simp] theorem reduceSetup_cfg : (reduceSetup s).cfg = s.cfg := rfl
@[simp] theorem reduceSetup_regs : (reduceSetup s).regs = s.regs := rfl
@[simp] theorem reduceSetup_status : (reduceSetup s).status = { s.status with stv := false } := rfl
@[simp] theorem reduceSetup_running : (reduceSetup s).running = s.running := rfl
@[simp] theorem reduceSetup_gid : (reduceSetup s).gid = s.gid := rfl
@[simp] theorem reduceSetup_statMin : (reduceSetup s).statMin = 255 := rfl
@[simp] theorem reduceSetup_statMax : (reduceSetup s).statMax = 0 := rfl
@[simp] theorem reduceSetup_smooth : (reduceSetup s).smooth = s.smooth := rfl
@[simp] theorem reduceSetup_wbuf : (reduceSetup s).wbuf = s.wbuf := rfl
@[simp] theorem reduceSetup_mem : (reduceSetup s).mem = s.mem := rfl
@[simp] theorem reduceSetup_todo : (reduceSetup s).todo = s.todo := rfl
@[simp] theorem reduceSetup_pick : (reduceSetup s).pick = s.pick := rfl
@[simp] theorem reduceSetup_agenda : (reduceSetup s).agenda = s.agenda := rfl
@[simp] theorem reduceSetup_rdata : (reduceSetup s).rdata = s.rdata := rfl
@[simp] theorem reduceSetup_mdata : (reduceSetup s).mdata = s.mdata := rfl
@[simp] theorem reduceSetup_freeCtr : (reduceSetup s).freeCtr = s.freeCtr := rfl

@[simp] theorem map2Setup_cfg : (map2Setup s).cfg = s.cfg := rfl
@[simp] theorem map2Setup_regs : (map2Setup s).regs = s.regs := rfl
@[simp] theorem map2Setup_status : (map2Setup s).status = s.status := rfl
@[simp] theorem map2Setup_running : (map2Setup s).running = s.running := rfl
@[simp] theorem map2Setup_gid : (map2Setup s).gid = s.gid := rfl
@[simp] theorem map2Setup_statMin : (map2Setup s).statMin = s.statMin := rfl
@[simp] theorem map2Setup_statMax : (map2Setup s).statMax = s.statMax := rfl
@[simp] theorem map2Setup_smooth : (map2Setup s).smooth = some (smoothMix s.smooth (mixNew s.statMin s.statMax)) := rfl
@[simp] theorem map2Setup_wbuf : (map2Setup s).wbuf = s.wbuf := rfl
@[simp] theorem map2Setup_mem : (map2Setup s).mem = s.mem := rfl
@[simp] theorem map2Setup_todo : (map2Setup s).todo = s.todo := rfl
@[simp] theorem map2Setup_pick : (map2Setup s).pick = s.pick := rfl
@[simp] theorem map2Setup_agenda : (map2Setup s).agenda = s.agenda := rfl
@[simp] theorem map2Setup_rdata : (map2Setup s).rdata = s.rdata := rfl
@[simp] theorem map2Setup_mdata : (map2Setup s).mdata = s.mdata := rfl
@[simp] theorem map2Setup_freeCtr : (map2Setup s).freeCtr = s.freeCtr := rfl

@[simp] theorem initClear_cfg : (initClear s).cfg = s.cfg := rfl
@[simp] theorem initClear_regs : (initClear s).regs = s.regs := rfl
@[simp] theorem initClear_status : (initClear s).status = { s.status with done := false, err := none, ready := false, wbv := false, stv := false } := rfl
@[simp] theorem initClear_running : (initClear s).running = s.running := rfl
@[simp] theorem initClear_gid : (initClear s).gid = 0 := rfl
@[simp] theorem initClear_statMin : (initClear s).statMin = 255 := rfl
@[simp] theorem initClear_statMax : (initClear s).statMax = 0 := rfl
@[simp] theorem initClear_smooth : (initClear s).smooth = none := rfl
@[simp] theorem initClear_wbuf : (initClear s).wbuf = [] := rfl
@[simp] theorem initClear_mem : (initClear s).mem = s.mem := rfl
@[simp] theorem initClear_todo : (initClear s).todo = s.todo := rfl
@[simp] theorem initClear_pick : (initClear s).pick = s.pick := rfl
@[simp] theorem initClear_agenda : (initClear s).agenda = s.agenda := rfl
@[simp] theorem initClear_rdata : (initClear s).rdata = s.rdata := rfl
@[simp] theorem initClear_mdata : (initClear s).mdata = s.mdata := rfl
@[simp] theorem initClear_freeCtr : (initClear s).freeCtr = s.freeCtr + 1 := rfl

@[simp] theorem resetState_cfg : (resetState s).cfg = s.cfg := rfl
@[simp] theorem resetState_regs : (resetState s).regs = Regs.reset := rfl
@[simp] theorem resetState_status : (resetState s).status = Status.reset := rfl
@[simp] theorem resetState_running : (resetState s).running = none := rfl
@[simp] theorem resetState_gid : (resetState s).gid = 0 := rfl
@[simp] theorem resetState_statMin : (resetState s).statMin = 255 := rfl
@[simp] theorem resetState_statMax : (resetState s).statMax = 0 := rfl
@[simp] theorem resetState_smooth : (resetState s).smooth = none := rfl
@[simp] theorem resetState_wbuf : (resetState s).wbuf = [] := rfl
@[simp] theorem resetState_mem : (resetState s).mem = s.mem := rfl
@[simp] theorem resetState_todo : (resetState s).todo = [] := rfl
@[simp] theorem resetState_pick : (resetState s).pick = s.pick := rfl
@[simp] theorem resetState_agenda : (resetState s).agenda = s.agenda := rfl
@[simp] theorem resetState_rdata : (resetState s).rdata = s.rdata := rfl
@[simp] theorem resetState_mdata : (resetState s).mdata = s.mdata := rfl
@[simp] theorem resetState_freeCtr : (resetState s).freeCtr = s.freeCtr + 1 := rfl

end Sys2Proof.Machine
end

