-- ==== Sys2Proof/Laws/Ops.lean ====
section
/-! SUPPORT. For each shared operation, what it can do, said once: byte accesses, the bodies of work-items, the prologue,
a turn of the engine, the shared meanings of commands, the fault path, and one step. -/

namespace Sys2Proof.Machine

/-! ### Byte accesses -/

theorem memRead_eq_some {s : State} {a : Nat} {v : Byte} :
    memRead s a = some v ↔ memFault s.cfg a .read = false ∧ v = s.mem.read a := by
  unfold memRead
  cases memFault s.cfg a .read <;> simp [eq_comm]

theorem memRead_eq_none {s : State} {a : Nat} : memRead s a = none ↔ memFault s.cfg a .read = true := by
  unfold memRead
  cases memFault s.cfg a .read <;> simp

theorem memWrite_eq_some {s t : State} {a : Nat} {v : Byte} :
    memWrite a v s = some t ↔ memFault s.cfg a .write = false ∧ t = { s with mem := s.mem.write a v } := by
  unfold memWrite
  cases memFault s.cfg a .write <;> simp [eq_comm]

theorem memWrite_eq_none {s : State} {a : Nat} {v : Byte} :
    memWrite a v s = none ↔ memFault s.cfg a .write = true := by
  unfold memWrite
  cases memFault s.cfg a .write <;> simp

/-- Every plane address lies in the address space (R69). -/
theorem planeAddr_lt (p : PlaneRegs) (r c : Nat) : planeAddr p r c < 2 ^ 32 := Nat.mod_lt _ (by decide)

/-- Every interleaved address lies in the address space (R69). -/
theorem pixelAddr_lt (p : PlaneRegs) (r c k : Nat) : pixelAddr p r c k < 2 ^ 32 := Nat.mod_lt _ (by decide)

theorem mem_planeRegion {p : PlaneRegs} {rows cols a : Nat} :
    a ∈ planeRegion p rows cols ↔ ∃ r < rows, ∃ c < cols, planeAddr p r c = a := by
  simp [planeRegion, List.mem_flatMap]

theorem mem_pixelRegion {p : PlaneRegs} {rows cols a : Nat} :
    a ∈ pixelRegion p rows cols ↔ ∃ r < rows, ∃ c < cols, ∃ k < 4, pixelAddr p r c k = a := by
  simp [pixelRegion, List.mem_flatMap]

/-! ### The working buffer -/

@[simp] theorem wbufRead_write_same (s : State) (i : Nat) (p : Pixel) : wbufRead (wbufWrite i p s) i = p := by
  simp [wbufRead, wbufWrite]

theorem wbufRead_write_other (s : State) {i j : Nat} (p : Pixel) (h : i ≠ j) :
    wbufRead (wbufWrite i p s) j = wbufRead s j := by
  simp [wbufRead, wbufWrite, sparseFind_insert_other _ _ h]

/-! ### Bodies of work-items: a completed one changes nothing but what it writes -/

/-- A completed pair of chroma writes (R132, R181). -/
theorem writeChroma_eq_some {x : WorkItem} {a b : Byte} {s t : State} (h : writeChroma x a b s = some t) :
    t = { s with mem := t.mem } ∧
      t.mem = if x.rep then
          (s.mem.write (planeAddr s.regs.dstA x.crow x.ccol) a).write (planeAddr s.regs.dstB x.crow x.ccol) b
        else s.mem := by
  unfold writeChroma at h
  split at h
  · next hr =>
    obtain ⟨u, hu, ht⟩ := Option.bind_eq_some_iff.1 h
    obtain ⟨-, rfl⟩ := memWrite_eq_some.1 hu
    obtain ⟨-, rfl⟩ := memWrite_eq_some.1 ht
    exact ⟨rfl, by simp [hr]⟩
  · next hr => cases h; exact ⟨rfl, by simp [hr]⟩

/-- A completed work-item that writes the destination planes (R132, R133, R180). -/
theorem writePlanes_eq_some {x : WorkItem} {y a b : Byte} {s t : State} (h : writePlanes x y a b s = some t) :
    t = { s with mem := t.mem } ∧
      t.mem = if x.rep then
          ((s.mem.write (planeAddr s.regs.dstY x.row x.col) y).write (planeAddr s.regs.dstA x.crow x.ccol) a).write
            (planeAddr s.regs.dstB x.crow x.ccol) b
        else s.mem.write (planeAddr s.regs.dstY x.row x.col) y := by
  obtain ⟨u, hu, ht⟩ := Option.bind_eq_some_iff.1 h
  obtain ⟨-, rfl⟩ := memWrite_eq_some.1 hu
  have := writeChroma_eq_some ht
  exact ⟨this.1, this.2⟩

/-- A completed work-item of REDUCE (R130). -/
theorem reduceItem_eq_some {x : WorkItem} {s t : State} (h : reduceItem x s = some t) :
    t = accumulate (s.mem.read (planeAddr s.regs.srcY x.row x.col)) s := by
  obtain ⟨y, hy, rfl⟩ := Option.map_eq_some_iff.1 h
  rw [(memRead_eq_some.1 hy).2]

/-- A completed work-item of PACK (R131). -/
theorem packItem_eq_some {x : WorkItem} {s t : State} (h : packItem x s = some t) :
    t = wbufWrite x.gid
      { c0 := s.mem.read (planeAddr s.regs.srcY x.row x.col)
        c1 := s.mem.read (planeAddr s.regs.srcA x.crow x.ccol)
        c2 := s.mem.read (planeAddr s.regs.srcB x.crow x.ccol), c3 := 0 } s := by
  unfold packItem at h
  split at h
  · next hy ha hb =>
    rw [← (memRead_eq_some.1 hy).2, ← (memRead_eq_some.1 ha).2, ← (memRead_eq_some.1 hb).2]
    exact (Option.some.inj h).symm
  · cases h

/-- A completed work-item of EMIT (R134). -/
theorem emitItem_eq_some {x : WorkItem} {s t : State} (h : emitItem x s = some t) :
    t = { s with mem := t.mem } ∧
      t.mem = (((s.mem.write (pixelAddr s.regs.dstI x.row x.col 0) (wbufRead s x.gid).c0).write
        (pixelAddr s.regs.dstI x.row x.col 1) (wbufRead s x.gid).c1).write
        (pixelAddr s.regs.dstI x.row x.col 2) (wbufRead s x.gid).c2).write
        (pixelAddr s.regs.dstI x.row x.col 3) (wbufRead s x.gid).c3 := by
  unfold emitItem at h
  obtain ⟨s1, h1, h⟩ := Option.bind_eq_some_iff.1 h
  obtain ⟨-, rfl⟩ := memWrite_eq_some.1 h1
  obtain ⟨s2, h2, h⟩ := Option.bind_eq_some_iff.1 h
  obtain ⟨-, rfl⟩ := memWrite_eq_some.1 h2
  obtain ⟨s3, h3, h⟩ := Option.bind_eq_some_iff.1 h
  obtain ⟨-, rfl⟩ := memWrite_eq_some.1 h3
  obtain ⟨-, rfl⟩ := memWrite_eq_some.1 h
  exact ⟨rfl, rfl⟩

/-- A completed work-item of KERN3 writes the planes with variant 3 of its luma sample (R180). -/
theorem kern3Item_eq_some {x : WorkItem} {s t : State} (h : kern3Item x s = some t) :
    writePlanes x (v3 s.cfg (s.mem.read (planeAddr s.regs.srcY x.row x.col))).1
      (v3 s.cfg (s.mem.read (planeAddr s.regs.srcY x.row x.col))).2.1
      (v3 s.cfg (s.mem.read (planeAddr s.regs.srcY x.row x.col))).2.2 s = some t := by
  obtain ⟨y, hy, ht⟩ := Option.bind_eq_some_iff.1 h
  rw [(memRead_eq_some.1 hy).2] at ht
  exact ht

/-! ### The fault path -/

/-- Free bytes at the addresses of a list leave every other address alone. -/
theorem scrambleMem_read_other (n : Nat) (as : List Nat) (m : Memory) {a : Nat} (h : a ∉ as) :
    (scrambleMem n as m).read a = m.read a := by
  induction as generalizing m with
  | nil => rfl
  | cons b r ih =>
    rw [List.mem_cons, not_or] at h
    show (scrambleMem n r (m.write b _)).read a = _
    rw [ih _ h.2, Memory.read_write_other m _ (Ne.symm h.1)]

/-- Free bytes inside the address space keep the canonical form. -/
theorem scrambleMem_wf (n : Nat) (as : List Nat) (m : Memory) (h : ∀ a ∈ as, a < 2 ^ 32) (hm : m.wf = true) :
    (scrambleMem n as m).wf = true := by
  induction as generalizing m with
  | nil => exact hm
  | cons b r ih =>
    exact ih _ (fun a ha => h a (List.mem_cons_of_mem _ ha)) (Memory.write_wf m b _ (h b (by simp)) hm)

/-! ### The sequencer -/

theorem nextGid_mem {i : Instr} {s : State} {g : Nat} (h : nextGid i s = some g) : g ∈ s.todo := by
  unfold nextGid at h
  split at h
  · exact List.mem_of_mem_head? h
  · exact List.mem_of_getElem? h

theorem nextGid_eq_none {i : Instr} {s : State} : nextGid i s = none ↔ s.todo = [] := by
  unfold nextGid
  split
  · exact List.head?_eq_none_iff
  · rw [List.getElem?_eq_none_iff]
    constructor
    · intro h
      rcases ht : s.todo with _ | ⟨g, r⟩
      · rfl
      · rw [ht] at h
        exact absurd (Nat.mod_lt s.pick (by simp : 0 < (g :: r).length)) (by omega)
    · intro h; simp [h]

/-- All that a turn of the engine can do (R112, R113). -/
theorem engineTurn_cases (i : Instr) (f : FrameCmd) (s : State) :
    (s.todo = [] ∧ engineTurn i f s = complete (f.finish s)) ∨
    (∃ g t, nextGid i s = some g ∧ f.body (workItem s.w g) s = some t ∧ engineTurn i f s = itemDone g t) ∨
    (∃ g, nextGid i s = some g ∧ f.body (workItem s.w g) s = none ∧
      engineTurn i f s = faultPath i f.onFault s) := by
  unfold engineTurn
  split
  · next h => exact .inl ⟨nextGid_eq_none.1 h, rfl⟩
  · next g h =>
    split
    · next t ht => exact .inr (.inl ⟨g, t, h, ht, rfl⟩)
    · next ht => exact .inr (.inr ⟨g, h, ht, rfl⟩)

/-- All that the prologue can do (R111), in the order of R201. -/
theorem prologue_cases (i : Instr) (setup : State → State) (s : State) :
    (s.status.ready = false ∧ prologue i setup s = .next (raiseError .notReady s)) ∨
    (s.status.ready = true ∧ (needsWbv i = true ∧ s.status.wbv = false ∨ needsStv i = true ∧ s.status.stv = false) ∧
      prologue i setup s = .next (raiseError .sequence s)) ∨
    (s.status.ready = true ∧ (needsWbv i = true → s.status.wbv = true) ∧ (needsStv i = true → s.status.stv = true) ∧
      stridesOk i s = false ∧ prologue i setup s = .next (raiseError .stride s)) ∨
    (s.status.ready = true ∧ (needsWbv i = true → s.status.wbv = true) ∧ (needsStv i = true → s.status.stv = true) ∧
      stridesOk i s = true ∧ prologue i setup s = acceptFrame i setup s) := by
  unfold prologue
  split
  · next h => exact .inl ⟨h, rfl⟩
  · next h =>
    have hr : s.status.ready = true := by simpa using h
    split
    · next hw => exact .inr (.inl ⟨hr, .inl (by simpa using hw), rfl⟩)
    · next hw =>
      have hw' : needsWbv i = true → s.status.wbv = true := by simpa using hw
      split
      · next hv => exact .inr (.inl ⟨hr, .inr (by simpa using hv), rfl⟩)
      · next hv =>
        have hv' : needsStv i = true → s.status.stv = true := by simpa using hv
        split
        · next hs => exact .inr (.inr (.inl ⟨hr, hw', hv', hs, rfl⟩))
        · next hs => exact .inr (.inr (.inr ⟨hr, hw', hv', by simpa using hs, rfl⟩))

/-- All that acceptance can do (R111 step 5, R73, R68). -/
theorem acceptFrame_cases (i : Instr) (setup : State → State) (s : State) :
    (noOverlap i s = false ∧ acceptFrame i setup s = .refused .overlappingFootprint) ∨
    (plainFootprint i s = false ∧ acceptFrame i setup s = .refused .deviceFootprint) ∨
    (noOverlap i s = true ∧ plainFootprint i s = true ∧
      acceptFrame i setup s = .next (setup { s with running := some i, gid := 0, todo := List.range s.n })) := by
  unfold acceptFrame
  split
  · next h => exact .inl ⟨h, rfl⟩
  · next h =>
    split
    · next hp => exact .inr (.inl ⟨hp, rfl⟩)
    · next hp => exact .inr (.inr ⟨by simpa using h, by simpa using hp, rfl⟩)

/-- The running command's meaning is a turn of the engine. -/
theorem frameCommand_running {i : Instr} {f : FrameCmd} {s : State} (h : s.running = some i) :
    frameCommand i f s = .next (engineTurn i f s) := by
  simp [frameCommand, h]

/-- A frame command issued while idle with an error latched is ignored (R110 step 2). -/
theorem frameCommand_latched {i : Instr} {f : FrameCmd} {s : State} (h : s.running = none)
    (he : s.status.err.isSome = true) : frameCommand i f s = .next s := by
  simp [frameCommand, h, he]

/-- A frame command issued while idle with no error latched enters its prologue (R111). -/
theorem frameCommand_idle {i : Instr} {f : FrameCmd} {s : State} (h : s.running = none)
    (he : s.status.err = none) : frameCommand i f s = prologue i f.setup (setDone false s) := by
  simp [frameCommand, h, he]

/-- A control command acts while the engine is idle. -/
theorem controlCommand_idle {act : State → State} {s : State} (h : s.running = none) :
    controlCommand act s = .next (act s) := by
  simp [controlCommand, h]

/-- All that INIT's checks can do (R115), in their order. -/
theorem initCheck_cases (s : State) :
    (s.regs.fmt ≠ 0 ∧ initCheck s = raiseError .unsupportedFormat s) ∨
    (s.regs.fmt = 0 ∧ (s.regs.engine = true ∧ s.cfg.hasPar = false) ∧ initCheck s = raiseError .deviceUnavailable s) ∨
    (s.regs.fmt = 0 ∧ ¬ (s.regs.engine = true ∧ s.cfg.hasPar = false) ∧ geometryOk s = false ∧
      initCheck s = raiseError .geometry s) ∨
    (s.regs.fmt = 0 ∧ ¬ (s.regs.engine = true ∧ s.cfg.hasPar = false) ∧ geometryOk s = true ∧
      initCheck s = setDone true (setReady true s)) := by
  unfold initCheck
  split
  · next h => exact .inl ⟨h, rfl⟩
  · next h =>
    have hf : s.regs.fmt = 0 := by simpa using h
    split
    · next he => exact .inr (.inl ⟨hf, by simpa using he, rfl⟩)
    · next he =>
      have he' : ¬ (s.regs.engine = true ∧ s.cfg.hasPar = false) := by simpa using he
      split
      · next hg => exact .inr (.inr (.inl ⟨hf, he', hg, rfl⟩))
      · next hg => exact .inr (.inr (.inr ⟨hf, he', by simpa using hg, rfl⟩))

/-- The geometry INIT accepts, written out (R196). -/
theorem geometryOk_iff (s : State) :
    geometryOk s = true ↔ 0 < s.w ∧ 0 < s.h ∧ s.n ≤ s.cfg.wbufPixels ∧
      (s.regs.evenChk = true → s.w % 2 = 0 ∧ s.h % 2 = 0) := by
  unfold geometryOk
  cases s.regs.evenChk <;> simp [Nat.pos_iff_ne_zero, and_assoc]

/-! ### One step -/

theorem step_nil {s : State} (h : s.agenda = []) : step s = engineMove 0 s := by
  simp [step, h]

theorem step_cons {s : State} {e : Event} {rest : List Event} (h : s.agenda = e :: rest) :
    step s = agentMove e { s with agenda := rest } := by
  simp [step, h]

theorem engineMove_idle {k : Nat} {s : State} (h : s.running = none) : engineMove k s = .next s := by
  simp [engineMove, h]

theorem engineMove_running {k : Nat} {s : State} {i : Instr} (h : s.running = some i) :
    engineMove k s = exec i { s with pick := k } := by
  simp [engineMove, h]

/-- A run of no step ends where it begins. -/
theorem runsTo_zero (s : State) : runsTo 0 s s := rfl

/-- A run of no step ends nowhere else. -/
theorem runsTo_zero_iff {s t : State} : runsTo 0 s t ↔ s = t := by
  simp [runsTo, runSteps]

/-- A run of one step or more is a step that gives a next state, and the rest of the run from it. -/
theorem runsTo_succ_iff {k : Nat} {s t : State} : runsTo (k + 1) s t ↔ ∃ u, step s = .next u ∧ runsTo k u t := by
  unfold runsTo
  rw [runSteps]
  cases step s <;> simp

/-- A run whose first step gives a next state goes on from it. -/
theorem runsTo_succ {k : Nat} {s u t : State} (h : step s = .next u) (hr : runsTo k u t) : runsTo (k + 1) s t :=
  runsTo_succ_iff.2 ⟨u, h, hr⟩

/-- Two runs one after the other are one run. -/
theorem runsTo_add {j k : Nat} {s u t : State} (h : runsTo j s u) (hr : runsTo k u t) : runsTo (j + k) s t := by
  induction j generalizing s with
  | zero => rw [runsTo_zero_iff.1 h]; simpa using hr
  | succ j ih =>
    obtain ⟨v, hv, h⟩ := runsTo_succ_iff.1 h
    rw [Nat.succ_add]
    exact runsTo_succ hv (ih h)

end Sys2Proof.Machine
end

