-- ==== Sys2Proof/Laws/PerInstr.lean ====
section
/-! SUPPORT. The statements made once per command: its word is a legal command word that fits the opcode field (R91, R92). -/

namespace Sys2Proof.Laws.LegalEncoding

/-- The command is well formed, and its word is legal, with RSV zero and its opcode in OPC (R91). -/
def Statement (i : Instr) : Prop :=
  i.wf = true ∧ legalWord (encode i) = true ∧ fieldRsv (encode i) = 0 ∧ fieldOpc (encode i) = (encode i).toNat

theorem nop : Statement .nop := ⟨rfl, rfl, rfl, rfl⟩
theorem init : Statement .init := ⟨rfl, rfl, rfl, rfl⟩
theorem reduce : Statement .reduce := ⟨rfl, rfl, rfl, rfl⟩
theorem pack : Statement .pack := ⟨rfl, rfl, rfl, rfl⟩
theorem map1 : Statement .map1 := ⟨rfl, rfl, rfl, rfl⟩
theorem map2 : Statement .map2 := ⟨rfl, rfl, rfl, rfl⟩
theorem map3 : Statement .map3 := ⟨rfl, rfl, rfl, rfl⟩
theorem unpackp : Statement .unpackp := ⟨rfl, rfl, rfl, rfl⟩
theorem unpackn : Statement .unpackn := ⟨rfl, rfl, rfl, rfl⟩
theorem emit : Statement .emit := ⟨rfl, rfl, rfl, rfl⟩
theorem kern3 : Statement .kern3 := ⟨rfl, rfl, rfl, rfl⟩
theorem reset : Statement .reset := ⟨rfl, rfl, rfl, rfl⟩

end Sys2Proof.Laws.LegalEncoding
end

