-- ==== Sys2Proof/Tests/Slice0.lean ====
section
/-! SUPPORT. The model's own tests: well-formedness smoke tests, command words written out from R91 and R92,
  one step of
each command against the spec's worked examples, and for every statement with hypotheses a witness that meets them. -/

namespace Sys2Proof.Machine

/-! ### Well-formedness refuses what is ill formed -/

theorem test_wf_refuses_misaligned_offset : offsetWf 0x06 = false ∧ offsetWf 0xFC = true := by decide

theorem test_wf_refuses_misaligned_event :
    eventWf (.regWrite 0x05 0) = false ∧ eventWf (.regRead 0x03) = false ∧ eventWf (.regRead 0x68) = true := by decide

theorem test_wf_refuses_empty_region :
    regionWf { base := 0x7100, size := 0, kind := .writesFail } = false ∧
    regionWf { base := 0x7100, size := 1, kind := .writesFail } = true := by decide

theorem test_wf_refuses_region_past_the_top :
    configWf { Config.clm1 with platform := [{ base := 0xFFFFFFFF, size := 2, kind := .device }] } = false ∧
    configWf Config.clm1 = true := by decide

theorem test_wf_accepts_every_command :
    Instr.wf .nop = true ∧ Instr.wf .init = true ∧ Instr.wf .kern3 = true ∧ Instr.wf .reset = true := by decide

theorem test_memory_wf_refuses : Memory.wf [(5, 1), (5, 2)] = false ∧ Memory.wf [(5, 0)] = false ∧
    Memory.wf [(4294967296, 1)] = false ∧ Memory.wf [(5, 1), (7, 255)] = true := by decide

/-! ### Decoding: the words of R92 bit by bit, the illegal words of R93 -/

theorem test_decode_control : decode 0b00000000000000000000000000000000#32 = .ok .nop ∧
    decode 0b00000000000000000000000000000001#32 = .ok .init ∧
    decode 0b00000000000000000000000000001111#32 = .ok .reset := by decide

theorem test_decode_planes : decode 0b00000000000000000000000000000010#32 = .ok .reduce ∧
    decode 0b00000000000000000000000000000011#32 = .ok .pack ∧
    decode 0b00000000000000000000000000000111#32 = .ok .unpackp ∧
    decode 0b00000000000000000000000000001000#32 = .ok .unpackn ∧
    decode 0b00000000000000000000000000001001#32 = .ok .emit := by decide

theorem test_decode_maps : decode 0b00000000000000000000000000000100#32 = .ok .map1 ∧
    decode 0b00000000000000000000000000000101#32 = .ok .map2 ∧
    decode 0b00000000000000000000000000000110#32 = .ok .map3 := by decide

theorem test_decode_kernel : decode 0b00000000000000000000000000001010#32 = .ok .kern3 := by decide

theorem test_decode_illegal : decode 0x0000000B#32 = .error .unassignedOpcode ∧
    decode 0x00000010#32 = .error .unassignedOpcode ∧ decode 0x00000100#32 = .error .reservedBitsSet ∧
    decode 0xFFFFFFFF#32 = .error .reservedBitsSet := by decide

theorem test_decode_table_words : decodeTableWord 32 3 = some .pack ∧ decodeTableWord 32 15 = some .reset ∧
    decodeTableWord 32 11 = none := by decide

/-! ### States for one step -/

/-- A 2x2 frame ready for every frame command, with the luma of the scenario of `95_test_vectors.md` section 1.1 at
0x1000, chroma 90 and 160, and WBUF as PACK leaves it. -/
def frame22 : State :=
  { State.reset with
    regs := { Regs.reset with
      width := 2, height := 2
      srcY := { base := 0x1000, stride := 2 }, srcA := { base := 0x1100, stride := 1 }
      srcB := { base := 0x1200, stride := 1 }
      dstY := { base := 0x7000, stride := 2 }, dstA := { base := 0x7100, stride := 1 }
      dstB := { base := 0x7200, stride := 1 }, dstI := { base := 0x3000, stride := 8 } }
    status := { Status.reset with ready := true, wbv := true, stv := true }
    statMin := 64, statMax := 192
    wbuf := [(0, ⟨0, 90, 160, 0⟩), (1, ⟨128, 90, 160, 0⟩), (2, ⟨255, 90, 160, 0⟩), (3, ⟨64, 90, 160, 0⟩)]
    mem := [(0x1001, 128), (0x1002, 255), (0x1003, 64), (0x1100, 90), (0x1200, 160)] }

/-- The same frame with command `i` running and the work-items `todo` left. -/
def running22 (i : Instr) (todo : List Nat) : State :=
  { frame22 with running := some i, todo := todo, gid := BitVec.ofNat 32 (4 - todo.length) }

/-- The next state of a result satisfies `p`. -/
def next? (r : Result) (p : State → Bool) : Bool :=
  match r with
  | .next t => p t
  | .fault _ => false
  | .refused _ => false

/-- One step on the word `w` written to CMD in state `s`. -/
def onCmd (w : Word) (s : State) : Result := step { s with agenda := [.regWrite 0x04 w] }

/-! ### One step of each command, against the spec's examples (sections 1 and 2 of `95_test_vectors.md`) -/

theorem test_nop_status : next? (onCmd 0x0 State.reset) (fun t => t.statusWord == 0x2#32 && t.gid == 0) = true := by
  decide

theorem test_nop_ignored_while_error :
    next? (onCmd 0x0 (raiseError .notReady State.reset)) (fun t => t.statusWord == 0x500#32) = true := by decide

theorem test_init_ready :
    next? (onCmd 0x1 { State.reset with regs := { Regs.reset with width := 4096, height := 2048 } })
      (fun t => t.statusWord == 0x6#32) = true := by decide

theorem test_init_geometry_capacity :
    next? (onCmd 0x1 { State.reset with regs := { Regs.reset with width := 4096, height := 2049 } })
      (fun t => t.statusWord == 0x600#32) = true := by decide

theorem test_reset_clears :
    next? (onCmd 0xF frame22) (fun t => t.statusWord == 0#32 && portRead 0x18 t == 512#32 && portRead 0x20 t == 0#32)
      = true := by decide

theorem test_frame_command_before_init :
    next? (onCmd 0x3 State.reset) (fun t => t.statusWord == 0x500#32) = true := by decide

theorem test_illegal_word : next? (onCmd 0x100 State.reset) (fun t => t.statusWord == 0x400#32) = true := by decide

theorem test_reduce_accepted :
    next? (onCmd 0x2 frame22) (fun t => t.statusWord == 0xD#32 && t.statMin == 255 && t.statMax == 0) = true := by
  decide

theorem test_reduce_item :
    next? (exec .reduce { running22 .reduce [1, 2, 3] with statMin := 0, statMax := 0 })
      (fun t => t.statMin == 0 && t.statMax == 128 && t.gid == 2) = true := by decide

theorem test_pack_item :
    next? (exec .pack { running22 .pack [1, 2, 3] with wbuf := [] })
      (fun t => t.wbuf == [(1, ⟨128, 90, 160, 0⟩)] && t.todo == [2, 3]) = true := by decide

theorem test_pack_completes :
    next? (exec .pack (running22 .pack [])) (fun t => t.statusWord == 0x1E#32 && t.gid == 4) = true := by decide

theorem test_map1_item :
    next? (exec .map1 (running22 .map1 [1, 2, 3])) (fun t => wbufRead t 1 == ⟨140, 181, 255, 0⟩) = true := by
  decide +kernel

theorem test_map2_smooth :
    next? (onCmd 0x5 frame22) (fun t => t.smooth == some (4488395266 / 4228250625)) = true := by decide +kernel

theorem test_map2_item :
    next? (exec .map2 { running22 .map2 [1, 2, 3] with
        wbuf := [(1, ⟨100, 0, 0, 7⟩)], smooth := some (4488395266 / 4228250625) })
      (fun t => wbufRead t 1 == ⟨128, 173, 255, 7⟩) = true := by decide +kernel

theorem test_map3_item :
    next? (exec .map3 (running22 .map3 [1, 2, 3])) (fun t => wbufRead t 1 == ⟨162, 173, 109, 0⟩) = true := by
  decide +kernel

theorem test_unpackp_representative :
    next? (exec .unpackp (running22 .unpackp [0, 1, 2, 3]))
      (fun t => t.mem.read 0x7000 == 0 && t.mem.read 0x7100 == 90 && t.mem.read 0x7200 == 160) = true := by decide

theorem test_unpackn_representative :
    next? (exec .unpackn (running22 .unpackn [0, 1, 2, 3]))
      (fun t => t.mem.read 0x7000 == 0 && t.mem.read 0x7100 == 128 && t.mem.read 0x7200 == 128) = true := by decide

theorem test_emit_item :
    next? (exec .emit { running22 .emit [1, 2, 3] with wbuf := [(1, ⟨140, 181, 255, 0⟩)] })
      (fun t => t.mem.read 0x3004 == 140 && t.mem.read 0x3005 == 181 && t.mem.read 0x3006 == 255 &&
        t.mem.read 0x3007 == 0 && t.mem.read 0x3003 == 0) = true := by decide

theorem test_kern3_other_pixel :
    next? (exec .kern3 (running22 .kern3 [1, 2, 3]))
      (fun t => t.mem.read 0x7001 == 162 && t.mem.read 0x7100 == 0) = true := by decide +kernel

theorem test_kern3_fault :
    next? (exec .kern3 { running22 .kern3 [0, 1, 2, 3] with
        cfg := { Config.clm1 with platform := [{ base := 0x7100, size := 1, kind := .writesFail }] } })
      (fun t => t.status.err == some .dispatch && t.status.ready && !t.busy && !t.status.done) = true := by
  decide +kernel

/-! ### The register port and the mapper (section 2 of `95_test_vectors.md`) -/

theorem test_width_keeps_16_bits :
    next? (step { State.reset with agenda := [.regWrite 0x20 0xFFFFFFFF] })
      (fun t => portRead 0x20 t == 0xFFFF#32) = true := by decide

theorem test_write_while_busy_sets_bwr :
    next? (step { running22 .pack [1, 2, 3] with agenda := [.regWrite 0x1C 1] }) (fun t => t.status.bwr) = true := by
  decide

/-- The hypothetical of section 2.4: mix 1/2, statistics 64 and 192, luma 100. -/
theorem test_equalise_formula : equalise (1 / 2) 64 192 100 = 50 + 2295 / 64 := by decide +kernel

theorem test_truncation_toward_zero : trunc (-1 / 2) = 0 ∧ trunc (14075 / 100) = 140 := by decide +kernel

theorem test_v3_other_b :
    v3 { Config.clm1 with v3b1 := 128, v3b2 := 0 } 30 = (70, 156, 95) := by decide +kernel

/-! ### Witnesses: for every statement with hypotheses, states and operands that meet them all -/

/-- `frame22` may launch every frame command. -/
theorem frame22_launchable (i : Instr) (h : isFrame i = true) : Launchable i frame22 := by
  cases i <;> first | (exact absurd h (by decide)) | exact ⟨rfl, rfl, rfl, rfl, by decide, by decide, by decide,
    by decide, by decide⟩

/-- Its coming moves do not matter for that. -/
theorem frame22_launchable_with (i : Instr) (l : List Event) (h : isFrame i = true) :
    Launchable i { frame22 with agenda := l } := by
  have hl := frame22_launchable i h
  exact ⟨hl.frame, hl.idle, hl.noErr, hl.ready, hl.wbv, hl.stv, by cases i <;> exact hl.strides,
    by cases i <;> exact hl.overlap, by cases i <;> exact hl.plain⟩

theorem frame22_answers (i : Instr) : footprintAnswers i frame22 = true := by cases i <;> decide

/-- `frame22` has the invariant. -/
theorem frame22_inv : frame22.Inv :=
  { memWf := by decide, wbufRising := by decide, readyFormat := fun _ => rfl
    readyEngine := fun _ h => absurd h (by decide), readyGeometry := fun _ => by decide
    packed := fun _ _ => by decide, statsOrdered := fun _ => by decide
    smoothBound := fun q h => (by cases h), errNotDone := fun h => absurd rfl h
    runningWell := fun i h => by cases h }

/-- So has the frame with KERN3 running and its first work-item done. -/
theorem running22_inv : (running22 .kern3 [1, 2, 3]).Inv :=
  { memWf := by decide, wbufRising := by decide, readyFormat := fun _ => rfl
    readyEngine := fun _ h => absurd h (by decide), readyGeometry := fun _ => by decide
    packed := fun _ _ => by decide, statsOrdered := fun _ => by decide
    smoothBound := fun q h => (by cases h), errNotDone := fun h => absurd rfl h
    runningWell := fun i h => by
      cases h
      exact { frame := rfl, ready := rfl, noErr := rfl, notDone := rfl, wbv := by decide, stv := by decide
              packing := by decide, reducing := by decide, mixing := by decide, strides := by decide
              overlap := by decide, plain := by decide, todoNodup := by decide, todoBelow := by decide
              count := by decide, order := by decide, accumulated := by decide
              written := fun h => by cases h } }

/-- The choices of five turns of the engine: the four work-items and the epilogue. -/
def turns : List Nat := [5, 0, 2, 1, 9]

theorem witness_DecodeOfEncodeIsTheCommand :
    Instr.wf .kern3 = true := rfl

theorem witness_StepRunsTheIssuedCommand :
    ∃ (s : State) (w : Word) (i : Instr) (rest : List Event), s.agenda = Event.regWrite 0x04 w :: rest ∧
      s.running = none ∧ decode w = .ok i :=
  ⟨{ frame22 with agenda := [.regWrite 0x04 3, .engine 0] }, 3, .pack, [.engine 0], rfl, rfl, by decide⟩

theorem witness_StepGivesTheEngineItsTurns :
    (∃ (s : State) (i : Instr) (k : Nat) (rest : List Event), s.running = some i ∧
      s.agenda = Event.engine k :: rest) ∧
    (∃ s : State, ∃ (i : Instr), s.running = some i ∧ s.agenda = []) ∧
    (∃ (s : State) (k : Nat) (rest : List Event), s.running = none ∧ s.agenda = Event.engine k :: rest) ∧
    (∃ s : State, s.running = none ∧ s.agenda = []) :=
  ⟨⟨{ running22 .pack [1] with agenda := [.engine 7] }, .pack, 7, [], rfl, rfl⟩, ⟨running22 .pack [1], .pack, rfl,
    rfl⟩,
    ⟨{ frame22 with agenda := [.engine 7] }, 7, [], rfl, rfl⟩, ⟨frame22, rfl, rfl⟩⟩

theorem witness_CommandIssueFollowsItsFourSteps :
    (∃ (s : State) (w : Word) (rest : List Event), s.agenda = Event.regWrite 0x04 w :: rest ∧ s.running ≠ none) ∧
    (∃ (s : State) (w : Word) (rest : List Event), s.agenda = Event.regWrite 0x04 w :: rest ∧ s.running = none ∧
      s.status.err ≠ none ∧
      w ≠ 0x00000001#32 ∧ w ≠ 0x0000000F#32) ∧
    (∃ (s : State) (w : Word) (rest : List Event), s.agenda = Event.regWrite 0x04 w :: rest ∧ s.running = none ∧
      s.status.err = none ∧
      legalWord w = false) ∧
    (∃ (s : State) (w : Word) (rest : List Event) (i : Instr), s.agenda = Event.regWrite 0x04 w :: rest ∧
      s.running = none ∧
      (s.status.err = none ∨ w = 0x00000001#32 ∨ w = 0x0000000F#32) ∧ decode w = .ok i) :=
  ⟨⟨{ running22 .pack [1] with agenda := [.regWrite 0x04 15] }, 15, [], rfl, by decide⟩,
    ⟨{ raiseError .stride frame22 with agenda := [.regWrite 0x04 0] }, 0, [], rfl, rfl, by decide, by decide,
      by decide⟩,
    ⟨{ frame22 with agenda := [.regWrite 0x04 0x0B] }, 0x0B, [], rfl, rfl, rfl, by decide⟩,
    ⟨{ raiseError .stride frame22 with agenda := [.regWrite 0x04 15] }, 15, [], .reset, rfl, rfl, by decide,
      by decide⟩⟩

theorem witness_NopOnlySetsDone :
    (∃ s : State, s.running = none ∧ s.status.err = none) ∧
    (∃ s : State, s.running = none ∧ s.status.err ≠ none) :=
  ⟨⟨frame22, rfl, rfl⟩, ⟨raiseError .stride frame22, rfl, by decide⟩⟩

theorem witness_InitConstructsOrReports :
    (∃ s : State, s.running = none ∧ s.regs.fmt ≠ 0) ∧
    (∃ s : State, s.running = none ∧ s.regs.fmt = 0 ∧ s.regs.engine = true ∧ s.cfg.hasPar = false) ∧
    (∃ s : State, s.running = none ∧ s.regs.fmt = 0 ∧ s.regs.engine = false ∧ s.regs.width.toNat = 0) ∧
    (∃ s : State, s.running = none ∧ geometryOk s = true ∧ s.regs.fmt = 0 ∧ s.n = s.cfg.wbufPixels) :=
  ⟨⟨{ frame22 with regs := { frame22.regs with fmt := 1 } }, rfl, by decide⟩,
    ⟨{ frame22 with cfg := { Config.clm1 with hasPar := false }, regs := { frame22.regs with engine := true } },
      rfl, rfl, rfl,
      rfl⟩,
    ⟨State.reset, rfl, rfl, rfl, rfl⟩,
    ⟨{ frame22 with regs := { frame22.regs with width := 4096, height := 2048 } }, rfl, by decide, rfl, by decide⟩⟩

theorem witness_ResetCommandRestoresResetValues :
    (∃ s : State, s.running = none ∧ s.status.err ≠ none) ∧ (∃ s : State, s.running ≠ none) :=
  ⟨⟨raiseError .stride frame22, rfl, by decide⟩, ⟨running22 .pack [1], by decide⟩⟩

theorem witness_HardwareResetEndsARunningCommand :
    ∃ (s : State) (i : Instr) (rest : List Event) (a : Nat), s.agenda = Event.hardReset :: rest ∧
      s.running = some i ∧ a ∉ writeFootprint i s ∧
      a + 1 ∈ writeFootprint i s :=
  ⟨{ running22 .kern3 [1] with agenda := [.hardReset] }, .kern3, [], 0x6FFF, rfl, rfl, by decide, by decide⟩

theorem witness_PrologueReportsErrorsInOrder :
    (∃ s : State, s.running = none ∧ s.status.err = none ∧ s.status.ready = false) ∧
    (∃ s : State, s.running = none ∧ s.status.err = none ∧ s.status.ready = true ∧ s.status.wbv = false) ∧
    (∃ s : State, s.running = none ∧ s.status.err = none ∧ s.status.ready = true ∧ s.status.stv = false) ∧
    (∃ s : State, s.running = none ∧ s.status.err = none ∧ s.status.ready = true ∧ s.status.wbv = true ∧
      strideTooSmall .pack s ∧ strideTooSmall .emit s) :=
  ⟨⟨State.reset, rfl, rfl, rfl⟩,
    ⟨{ frame22 with status := { frame22.status with wbv := false } }, rfl, rfl, rfl, rfl⟩,
    ⟨{ frame22 with status := { frame22.status with stv := false } }, rfl, rfl, rfl, rfl⟩,
    ⟨{ frame22 with regs := { frame22.regs with srcY := ⟨0x1000, 1⟩, dstI := ⟨0x3000, 7⟩ } }, rfl, rfl, rfl, rfl,
      .inl (by decide), by show (7#32 : Word).toNat < 4 * (2#16 : Dim).toNat; decide⟩⟩

theorem witness_FrameCommandsAreAccepted :
    Launchable .reduce frame22 ∧ Launchable .pack frame22 ∧ Launchable .map1 frame22 ∧ Launchable .map2 frame22 ∧
    Launchable .map3 frame22 ∧ Launchable .unpackp frame22 ∧ Launchable .unpackn frame22 ∧ Launchable .emit frame22 ∧
    Launchable .kern3 frame22 := by
  refine ⟨?_, ?_, ?_, ?_, ?_, ?_, ?_, ?_, ?_⟩ <;> exact frame22_launchable _ rfl

theorem witness_MeaninglessLaunchIsRefused :
    (∃ s : State, s.running = none ∧ s.status.err = none ∧ s.status.ready = true ∧ ¬ strideTooSmall .kern3 s ∧
      noOverlap .kern3 s = false) ∧
    (∃ s : State, s.running = none ∧ s.status.err = none ∧ s.status.ready = true ∧ ¬ strideTooSmall .kern3 s ∧
      noOverlap .kern3 s = true ∧ plainFootprint .kern3 s = false) :=
  ⟨⟨{ frame22 with regs := { frame22.regs with dstY := ⟨0x1003, 2⟩ } }, rfl, rfl, rfl, by
      rintro (h | h | h | h) <;> revert h <;> decide, by decide⟩,
    ⟨{ frame22 with cfg := { Config.clm1 with platform := [⟨0x7100, 1, .device⟩] } }, rfl, rfl, rfl, by
      rintro (h | h | h | h) <;> revert h <;> decide, by decide, by decide⟩⟩

theorem witness_ReduceTakesOneSample :
    ∃ (s : State) (g : Nat) (rest : List Nat), s.running = some .reduce ∧ s.todo = g :: rest ∧
      memFault s.cfg 0x1003 .read = false :=
  ⟨running22 .reduce [3], 3, [], rfl, rfl, rfl⟩

theorem witness_PackMovesOnePixel :
    ∃ (s : State) (g : Nat), s.running = some .pack ∧ nextGid .pack s = some g ∧ ∀ a < 65536,
      memFault s.cfg a .read = false :=
  ⟨{ running22 .pack [1, 2, 3] with pick := 5, regs := { frame22.regs with engine := true } }, 3, rfl, rfl,
    fun _ _ => rfl⟩

theorem witness_MapsTransformOnePixel :
    (∃ (s : State) (g : Nat), s.running = some .map1 ∧ nextGid .map1 s = some g) ∧
    (∃ (s : State) (g : Nat) (mix : Rat), s.running = some .map2 ∧ nextGid .map2 s = some g ∧ s.smooth = some mix) ∧
    (∃ (s : State) (g : Nat), s.running = some .map3 ∧ nextGid .map3 s = some g) :=
  ⟨⟨running22 .map1 [3], 3, rfl, rfl⟩, ⟨{ running22 .map2 [3] with smooth := some 1 }, 3, 1, rfl, rfl, rfl⟩,
    ⟨running22 .map3 [3], 3, rfl, rfl⟩⟩

theorem witness_PlaneWritersWriteOnePixel :
    (∃ (s : State) (g : Nat), s.running = some .kern3 ∧ nextGid .kern3 s = some g ∧ (workItem 2 g).rep = true ∧
      itemFaults .kern3 (workItem s.regs.width.toNat g) s = false) ∧
    (∃ (s : State) (g : Nat), s.running = some .unpackn ∧ nextGid .unpackn s = some g ∧ (workItem 2 g).rep = false ∧
      itemFaults .unpackn (workItem s.regs.width.toNat g) s = false) :=
  ⟨⟨running22 .kern3 [0, 1, 2, 3], 0, rfl, rfl, rfl, rfl⟩, ⟨running22 .unpackn [3], 3, rfl, rfl, rfl, rfl⟩⟩

theorem witness_EmitWritesFourBytes :
    ∃ (s : State) (g : Nat), s.running = some .emit ∧ nextGid .emit s = some g ∧
      itemFaults .emit (workItem s.regs.width.toNat g) s = false :=
  ⟨running22 .emit [3], 3, rfl, rfl, rfl⟩

theorem witness_EngineEndsTheCommandAfterItsItems :
    ∃ s : State, isFrame .map2 = true ∧ s.running = some .map2 ∧ s.todo = [] :=
  ⟨running22 .map2 [], rfl, rfl, rfl⟩

theorem witness_FailedAccessTakesTheFaultPath :
    ∃ (s : State) (g : Nat), s.running = some .kern3 ∧ s.status.err = none ∧ nextGid .kern3 s = some g ∧
      itemFaults .kern3 (workItem s.regs.width.toNat g) s = true ∧ 0x7101 ∉ writeFootprint .kern3 s :=
  ⟨{ running22 .kern3 [0, 1, 2, 3] with cfg := { Config.clm1 with platform := [⟨0x7100, 1, .writesFail⟩] } }, 0,
    rfl, rfl, rfl,
      by decide, by decide⟩

theorem witness_ReduceFindsTheExtremeSamples :
    ∃ (s : State) (ks : List Nat) (rest : List Event), Launchable .reduce s ∧ footprintAnswers .reduce s = true ∧
      ks.length = s.n + 1 ∧
      s.agenda = issueMoves .reduce ks ++ rest ∧ 0 < s.n :=
  ⟨{ frame22 with agenda := issueMoves .reduce turns ++ [.regRead 0x08] }, turns, [.regRead 0x08],
      frame22_launchable_with _ _ rfl, frame22_answers .reduce, rfl, rfl, by decide⟩

theorem witness_PackFillsTheWorkingBuffer :
    ∃ (s : State) (ks : List Nat) (rest : List Event), Launchable .pack s ∧ footprintAnswers .pack s = true ∧
      ks.length = s.n + 1 ∧
      s.agenda = issueMoves .pack ks ++ rest ∧ 0 < s.n :=
  ⟨{ frame22 with agenda := issueMoves .pack turns ++ [.regRead 0x08] }, turns, [.regRead 0x08],
      frame22_launchable_with _ _ rfl, frame22_answers .pack, rfl, rfl, by decide⟩

theorem witness_UnpacksWriteThePlanes :
    ∃ (s : State) (ks : List Nat) (rest : List Event), Launchable .unpackn s ∧ footprintAnswers .unpackn s = true ∧
      ks.length = s.n + 1 ∧
      s.agenda = issueMoves .unpackn ks ++ rest ∧ 0 < s.n :=
  ⟨{ frame22 with agenda := issueMoves .unpackn turns ++ [.regRead 0x08] }, turns, [.regRead 0x08],
      frame22_launchable_with _ _ rfl, frame22_answers .unpackn, rfl, rfl, by decide⟩

theorem witness_EmitWritesTheInterleavedFrame :
    ∃ (s : State) (ks : List Nat) (rest : List Event), Launchable .emit s ∧ footprintAnswers .emit s = true ∧
      ks.length = s.n + 1 ∧
      s.agenda = issueMoves .emit ks ++ rest ∧ 0 < s.n :=
  ⟨{ frame22 with agenda := issueMoves .emit turns ++ [.regRead 0x08] }, turns, [.regRead 0x08],
      frame22_launchable_with _ _ rfl, frame22_answers .emit, rfl, rfl, by decide⟩

theorem witness_Kern3WritesVariant3 :
    ∃ (s : State) (ks : List Nat) (rest : List Event), Launchable .kern3 s ∧ footprintAnswers .kern3 s = true ∧
      ks.length = s.n + 1 ∧
      s.agenda = issueMoves .kern3 ks ++ rest ∧ 0 < s.n :=
  ⟨{ frame22 with agenda := issueMoves .kern3 turns ++ [.regRead 0x08] }, turns, [.regRead 0x08],
      frame22_launchable_with _ _ rfl, frame22_answers .kern3, rfl, rfl, by decide⟩

theorem witness_FixedMapsTransformEveryPixel :
    ∃ (s : State) (ks : List Nat) (rest : List Event), Launchable .map3 s ∧ ks.length = s.n + 1 ∧
      s.agenda = issueMoves .map3 ks ++ rest ∧ 0 < s.n :=
  ⟨{ frame22 with agenda := issueMoves .map3 turns ++ [] }, turns, [], frame22_launchable_with _ _ rfl, rfl, rfl,
    by decide⟩

theorem witness_AdaptiveMapTransformsEveryPixel :
    ∃ (s : State) (ks : List Nat) (rest : List Event), Launchable .map2 s ∧ ks.length = s.n + 1 ∧
      s.agenda = issueMoves .map2 ks ++ rest ∧ 0 < s.n :=
  ⟨{ frame22 with agenda := issueMoves .map2 turns ++ [] }, turns, [], frame22_launchable_with _ _ rfl, rfl, rfl,
    by decide⟩

theorem witness_EveryOrderGivesTheSameFinalState :
    Launchable .emit frame22 ∧ footprintAnswers .emit frame22 = true ∧ frame22.mem.wf = true ∧
      sparseRising none frame22.wbuf = true ∧ turns.length = frame22.n + 1 :=
  ⟨frame22_launchable _ rfl, frame22_answers _, by decide, by decide, rfl⟩

theorem witness_Kern3EqualsPackMap3Unpackp :
    Launchable .kern3 frame22 ∧ Launchable .pack frame22 ∧ footprintAnswers .kern3 frame22 = true ∧
      footprintAnswers .pack frame22 = true ∧ turns.length = frame22.n + 1 :=
  ⟨frame22_launchable _ rfl, frame22_launchable _ rfl, frame22_answers _, frame22_answers _, rfl⟩

theorem witness_PackUnpackRoundTrip :
    Launchable .pack frame22 ∧ footprintAnswers .pack frame22 = true ∧ stridesOk .unpackp frame22 = true ∧
      noOverlap .unpackp frame22 = true ∧ plainFootprint .unpackp frame22 = true ∧
      footprintAnswers .unpackp frame22 = true ∧ turns.length = frame22.n + 1 ∧
      ∀ a ∈ writeFootprint .unpackp frame22, memFault frame22.cfg a .read = false :=
  ⟨frame22_launchable _ rfl, frame22_answers _, (frame22_launchable .unpackp rfl).strides,
    (frame22_launchable .unpackp rfl).overlap, (frame22_launchable .unpackp rfl).plain, frame22_answers _, rfl,
    fun _ _ => rfl⟩

theorem witness_StepKeepsTheInvariant :
    ∃ (s : State) (t : State), State.Inv s ∧ step s = .next t :=
  ⟨running22 .kern3 [1, 2, 3], _, running22_inv, rfl⟩

theorem witness_CommandsWriteOnlyTheirFootprint :
    ∃ (s : State) (t : State) (i : Instr) (a : Nat), State.Inv s ∧ s.running = some i ∧ s.agenda = [] ∧
      step s = .next t ∧ a ∉ writeFootprint i s :=
  ⟨running22 .kern3 [1, 2, 3], _, .kern3, 0x7004, running22_inv, rfl, rfl, rfl, by decide⟩

theorem witness_ErrorStaysUntilAcknowledged :
    ∃ (s : State) (t : State) (e : ErrorKind), s.status.err = some e ∧ step s = .next t ∧ t.status.err ≠ some e :=
  ⟨{ raiseError .stride frame22 with agenda := [.regWrite 0x08 0x100] }, _, .stride, rfl, rfl, by decide⟩

theorem witness_OnlyInitMakesReady :
    ∃ s t : State, s.status.ready = false ∧ step s = .next t ∧ t.status.ready = true :=
  ⟨{ setReady false frame22 with agenda := [.regWrite 0x04 1] }, _, rfl, rfl, by decide⟩

theorem witness_SmoothingChangesOncePerMap2 :
    (∃ s t : State, step s = .next t ∧ t.smooth ≠ s.smooth ∧ t.running = some .map2) ∧
    (∃ s t : State, step s = .next t ∧ t.smooth ≠ s.smooth ∧ s.agenda = [.hardReset]) :=
  ⟨⟨{ frame22 with agenda := [.regWrite 0x04 5] }, _, rfl, Option.some_ne_none _, rfl⟩,
    ⟨{ frame22 with smooth := some 1, agenda := [.hardReset] }, _, rfl, (Option.some_ne_none _).symm, rfl⟩⟩

theorem witness_NoRegisterWriteStopsACommand :
    ∃ (s : State) (t : State) (i : Instr), s.running = some i ∧ step s = .next t ∧ t.running ≠ some i :=
  ⟨running22 .pack [], _, .pack, rfl, rfl, by decide⟩

theorem witness_ToneCurveRisesWithinBounds :
    (254 : Byte).toNat < (255 : Byte).toNat := by decide

theorem witness_PaletteOfVariantOne :
    (69 : Rat) < 70 ∧ (70 : Rat) ≤ 70 ∧ (70 : Rat) < 85 ∧ (85 : Rat) ≤ 85 ∧ (70 : Rat) ≤ 85 := by decide +kernel

theorem witness_BlendPortionLiesInOneToTwo :
    (0 : Byte).toNat ≤ (255 : Byte).toNat ∧ (77 : Byte).toNat ≤ (77 : Byte).toNat := by decide

theorem witness_FourBandCurveIsContinuousAndBounded :
    (9 : Rat) < 10 ∧ (10 : Rat) ≤ 10 ∧ (10 : Rat) < 30 ∧ (30 : Rat) ≤ 30 ∧ (30 : Rat) < 230 ∧ (230 : Rat) ≤ 230 := by
  decide +kernel

theorem witness_AdaptiveStageNeverChangesAPixel :
    (0 : Byte).toNat ≤ (255 : Byte).toNat ∧ ∀ p, some (1 : Rat) = some p → 1 ≤ p ∧ p ≤ 2 :=
  ⟨by decide, fun p h => by cases h; decide +kernel⟩

theorem witness_ByteConversionTruncatesAndClamps :
    (0 : Rat) ≤ 511 / 2 ∧ (511 / 2 : Rat) < 256 ∧ (-1 / 2 : Rat) < 0 ∧ (256 : Rat) ≤ 256 := by decide +kernel

theorem witness_WorkItemCoordinatesLieInTheFrame :
    8 < 3 * 3 ∧ (workItem 3 8).row = 2 ∧ (workItem 3 8).col = 2 ∧ (workItem 3 8).crow = 1 := by decide

theorem witness_EachChromaSampleHasOneRepresentative :
    1 < (3 + 1) / 2 ∧ (workItem 3 8).rep = true ∧ (workItem 3 8).ccol = 1 := by decide

/-- Both planes cross the top of the address space, and their spans are exactly the whole of it. -/
theorem witness_PlaneThatDoesNotWrapIsInjective :
    (∃ p : PlaneRegs, p.base = 0xFFFFFFFC ∧ 1 ≤ p.stride.toNat ∧ (2 - 1) * p.stride.toNat + 1 = 2 ^ 32) ∧
    (∃ p : PlaneRegs, p.base = 0xFFFFFFFC ∧ 4 * 1 ≤ p.stride.toNat ∧ (2 - 1) * p.stride.toNat + 4 * 1 = 2 ^ 32) :=
  ⟨⟨⟨0xFFFFFFFC, 0xFFFFFFFF⟩, rfl, by decide, by decide⟩, ⟨⟨0xFFFFFFFC, 0xFFFFFFFC⟩, rfl, by decide, by decide⟩⟩

theorem witness_RegisterWritesStoreTheirFields :
    (∃ (s : State) (off : BitVec 8) (w : Word) (r : RegName) (rest : List Event),
      s.agenda = Event.regWrite off w :: rest ∧ s.running = none ∧ regAt off.toNat = some r ∧
      r ≠ .cmd ∧ r ≠ .status ∧ r = .width) ∧
    (∃ (s : State) (off : BitVec 8) (w : Word) (r : RegName) (rest : List Event),
      s.agenda = Event.regWrite off w :: rest ∧ s.running = none ∧ regAt off.toNat = some r ∧
      r ≠ .cmd ∧ r ≠ .status ∧ r = .gid) :=
  ⟨⟨{ frame22 with agenda := [.regWrite 0x20 0x12345678] }, 0x20, 0x12345678, .width, [], rfl, rfl, rfl, by decide,
    by decide,
      rfl⟩,
    ⟨{ frame22 with agenda := [.regWrite 0x68 7] }, 0x68, 7, .gid, [], rfl, rfl, rfl, by decide, by decide, rfl⟩⟩

theorem witness_WritesDuringBusyAreDropped :
    (∃ (s : State) (off : BitVec 8) (w : Word) (rest : List Event), s.running ≠ none ∧ off.toNat % 4 = 0 ∧
      s.agenda = Event.regWrite off w :: rest ∧ off ≠ 0x08 ∧
      off ≠ 0x0C ∧ off ≠ 0x00) ∧
    (∃ (s : State) (w : Word) (rest : List Event), s.running ≠ none ∧ s.agenda = Event.regWrite 0x00 w :: rest) ∧
    (∃ (s : State) (w : Word) (rest : List Event), s.running ≠ none ∧ s.agenda = Event.regWrite 0x0C w :: rest) ∧
    (∃ (s : State) (off : BitVec 8) (rest : List Event), s.running ≠ none ∧ off.toNat % 4 = 0 ∧
      s.agenda = Event.regRead off :: rest) :=
  ⟨⟨{ running22 .pack [1] with agenda := [.regWrite 0xFC 1] }, 0xFC, 1, [], by decide, by decide, rfl, by decide,
    by decide,
      by decide⟩,
    ⟨{ running22 .pack [1] with agenda := [.regWrite 0x00 1] }, 1, [], by decide, rfl⟩,
    ⟨{ running22 .pack [1] with agenda := [.regWrite 0x0C 3] }, 3, [], by decide, rfl⟩,
    ⟨{ running22 .pack [1] with agenda := [.regRead 0x68] }, 0x68, [], by decide, by decide, rfl⟩⟩

theorem witness_StatusWriteClearsItsBits :
    ∃ (s : State) (w : Word) (rest : List Event), s.agenda = Event.regWrite 0x08 w :: rest ∧ s.running ≠ none :=
  ⟨{ running22 .pack [1] with agenda := [.regWrite 0x08 0x142] }, 0x142, [], rfl, by decide⟩

theorem witness_GeometryWriteClearsReady :
    ∃ (s : State) (w : Word) (rest : List Event), s.agenda = Event.regWrite 0x20 w :: rest ∧ s.running = none ∧
      s.status.ready = true ∧ s.status.err = none :=
  ⟨{ frame22 with agenda := [.regWrite 0x20 2] }, 2, [], rfl, rfl, rfl, rfl⟩

theorem witness_ReservedOffsetsReadZero :
    (∃ (s : State) (w : Word) (rest : List Event), s.agenda = Event.regWrite 0x6C w :: rest ∧ s.running = none ∧
      0x6C ≤ (0x6C : BitVec 8).toNat) ∧
    (∃ (s : State) (w : Word) (rest : List Event), s.agenda = Event.regWrite 0x1C w :: rest ∧ s.running ≠ none) :=
  ⟨⟨{ frame22 with agenda := [.regWrite 0x6C 1] }, 1, [], rfl, rfl, by decide⟩,
    ⟨{ running22 .pack [1] with agenda := [.regWrite 0x1C 1] }, 1, [], rfl, by decide⟩⟩

theorem witness_PortTransactionsAreWholeWords :
    (∃ (s : State) (off : BitVec 8) (rest : List Event), off.toNat % 4 ≠ 0 ∧ s.agenda = Event.regRead off :: rest) ∧
    (∃ (s : State) (off : BitVec 8) (rest : List Event), off.toNat % 4 = 0 ∧ s.agenda = Event.regRead off :: rest) :=
  ⟨⟨{ frame22 with agenda := [.regRead 0x09] }, 0x09, [], by decide, rfl⟩,
    ⟨{ frame22 with agenda := [.regRead 0x08] }, 0x08, [], by decide, rfl⟩⟩

theorem witness_HostOwnsMemoryBetweenCommands :
    (∃ (s : State) (a : Word) (v : Byte) (rest : List Event), s.running = none ∧
      s.agenda = Event.memWrite a v :: rest) ∧
    (∃ (s : State) (a : Word) (rest : List Event), s.running = none ∧ s.agenda = Event.memRead a :: rest) ∧
    (∃ (s : State) (i : Instr) (a : Word) (v : Byte) (rest : List Event), s.running = some i ∧
      s.agenda = Event.memWrite a v :: rest ∧ a.toNat ∈ readFootprint i s) ∧
    (∃ (s : State) (i : Instr) (a : Word) (rest : List Event), s.running = some i ∧
      s.agenda = Event.memRead a :: rest ∧ a.toNat ∈ writeFootprint i s) :=
  ⟨⟨{ frame22 with agenda := [.memWrite 0x1000 9] }, 0x1000, 9, [], rfl, rfl⟩,
    ⟨{ frame22 with agenda := [.memRead 0x1000] }, 0x1000, [], rfl, rfl⟩,
    ⟨{ running22 .kern3 [1] with agenda := [.memWrite 0x1003 9] }, .kern3, 0x1003, 9, [], rfl, rfl, by decide⟩,
    ⟨{ running22 .kern3 [1] with agenda := [.memRead 0x7100] }, .kern3, 0x7100, [], rfl, rfl, by decide⟩⟩

theorem witness_RegisterMapIsWrittenOut : 0x6C ≤ 0x6C ∧ regAt 0x6C = none ∧ regAt 0xFC = none := by decide

/-- R100 by hand: SRC_A_BASE stands at 0x30 and SRC_B_BASE at 0x38. -/
theorem test_source_chroma_offsets :
    next? (step { frame22 with agenda := [.regWrite 0x30 0xAAAA] })
      (fun t => t.regs.srcA.base == 0xAAAA && t.regs.srcB.base == 0x1200) = true := by decide

end Sys2Proof.Machine
end

section
/-! PROOFS. The family of `00_scope.md`: the turns of the engine (R7, R112, R220) and the one conversion from a rational
to a byte (R11, R150). -/

namespace Sys2Proof.Machine

/-! ### The turns of the engine -/

/-- Settles O5, from what a move of the engine does while a command runs and while the engine is idle. -/
theorem stepGivesTheEngineItsTurns : Obligations.StepGivesTheEngineItsTurns := by
  intro s
  refine ⟨fun i hrun => ⟨fun k rest hagenda => ?engineTurn, fun hagenda => ?emptyAgenda⟩,
    fun hidle => ⟨fun k rest hagenda => ?idleTurn, fun hagenda => ?idleEmpty⟩⟩
  case engineTurn => exact (step_cons hagenda).trans (engineMove_running hrun)
  case emptyAgenda => exact (step_nil hagenda).trans (engineMove_running hrun)
  case idleTurn => exact (step_cons hagenda).trans (engineMove_idle hidle)
  case idleEmpty => exact (step_nil hagenda).trans (engineMove_idle hidle)

/-! ### Truncation and clamping -/

/-- Truncation toward zero is an odd function (R11). -/
theorem trunc_neg (x : Rat) : trunc (-x) = -trunc x := by
  simp [trunc, Int.neg_tdiv]

/-- On nonnegative rationals truncation toward zero rounds down (R11). -/
theorem trunc_of_nonneg {x : Rat} (hx : 0 ≤ x) : trunc x = ⌊x⌋ := by
  rw [Rat.floor_def', trunc, Int.tdiv_eq_ediv_of_nonneg (Rat.num_nonneg.2 hx)]

/-- On nonpositive rationals truncation toward zero rounds up (R11). -/
theorem trunc_of_nonpos {x : Rat} (hx : x ≤ 0) : trunc x = ⌈x⌉ := by
  calc trunc x = -trunc (-x) := by rw [trunc_neg, neg_neg]
    _ = -⌊-x⌋ := by rw [trunc_of_nonneg (neg_nonneg.2 hx)]
    _ = ⌈x⌉ := by rw [Int.floor_neg, neg_neg]

/-- Between its bounds `clamp` changes nothing (R11). -/
theorem clamp_of_mem {x lo hi : Int} (hlo : lo ≤ x) (hhi : x ≤ hi) : clamp x lo hi = x := by
  rw [clamp, if_neg hlo.not_gt, if_neg hhi.not_gt]

/-- Up to the lower bound `clamp` gives that bound (R11). -/
theorem clamp_of_le {x lo hi : Int} (hbounds : lo ≤ hi) (h : x ≤ lo) : clamp x lo hi = lo := by
  rcases h.lt_or_eq with hlt | rfl
  · exact if_pos hlt
  · exact clamp_of_mem le_rfl hbounds

/-- From the upper bound on `clamp` gives that bound (R11). -/
theorem clamp_of_ge {x lo hi : Int} (hbounds : lo ≤ hi) (h : hi ≤ x) : clamp x lo hi = hi := by
  rcases h.lt_or_eq with hlt | rfl
  · rw [clamp, if_neg (hbounds.trans h).not_gt, if_pos hlt]
  · exact clamp_of_mem hbounds le_rfl

/-- Up to 0 a rational becomes the byte 0 (R11). -/
theorem toByte_of_nonpos {x : Rat} (hx : x ≤ 0) : toByte x = 0 := by
  have htrunc : trunc x ≤ 0 := by
    rw [trunc_of_nonpos hx]
    exact Int.ceil_le.2 (by exact_mod_cast hx)
  rw [toByte, clamp_of_le (by decide) htrunc]; rfl

/-- From 255 on a rational becomes the byte 255 (R11). -/
theorem toByte_of_ge {x : Rat} (hx : 255 ≤ x) : toByte x = 255 := by
  have htrunc : 255 ≤ trunc x := by
    rw [trunc_of_nonneg (le_trans (by norm_num) hx)]
    exact Int.le_floor.2 (by exact_mod_cast hx)
  rw [toByte, clamp_of_ge (by decide) htrunc]; rfl

/-- Inside the range of a byte the conversion only drops the fraction (R11). -/
theorem toByte_toNat {x : Rat} (hlo : 0 ≤ x) (hhi : x < 256) : ((toByte x).toNat : Int) = ⌊x⌋ := by
  have hfloorLo : 0 ≤ ⌊x⌋ := Int.floor_nonneg.2 hlo
  have hfloorHi : ⌊x⌋ < 256 := Int.floor_lt.2 (by exact_mod_cast hhi)
  rw [toByte, trunc_of_nonneg hlo, clamp_of_mem hfloorLo (by omega), BitVec.toNat_ofInt]
  omega

/-- Settles O46, from truncation on either side of zero and the three ranges of the clamp. -/
theorem byteConversionTruncatesAndClamps : Obligations.ByteConversionTruncatesAndClamps := fun _ =>
  ⟨trunc_of_nonneg, trunc_of_nonpos, toByte_toNat, fun hneg => toByte_of_nonpos hneg.le,
    fun hbig => toByte_of_ge (le_trans (by norm_num) hbig)⟩

end Sys2Proof.Machine
end


section
/-! PROOFS. The family of `10_state.md`, first part: the register map (R22, R36), the transactions of the port (R21,
R26, R37, R38), STATUS and the interrupt output (R25, R43), the reset state (R45), and the shape of each command's
meaning. -/

namespace Sys2Proof.Machine

/-! ### The register map -/

/-- The offset of each register (R22): what `regAt` inverts. -/
def RegName.offset (r : RegName) : Nat :=
  match r with
  | .id => 0x00
  | .cmd => 0x04
  | .status => 0x08
  | .ien => 0x0C
  | .format => 0x10
  | .mode => 0x14
  | .wgsize => 0x18
  | .width => 0x20
  | .height => 0x24
  | .srcYBase => 0x28
  | .srcYStride => 0x2C
  | .srcABase => 0x30
  | .srcAStride => 0x34
  | .srcBBase => 0x38
  | .srcBStride => 0x3C
  | .dstYBase => 0x40
  | .dstYStride => 0x44
  | .dstABase => 0x48
  | .dstAStride => 0x4C
  | .dstBBase => 0x50
  | .dstBStride => 0x54
  | .dstIBase => 0x58
  | .dstIStride => 0x5C
  | .statMin => 0x60
  | .statMax => 0x64
  | .gid => 0x68

/-- Each register stands at its one offset (R22). -/
theorem regAt_eq_some_iff {n : Nat} {r : RegName} : regAt n = some r ↔ n = r.offset := by
  constructor
  · intro h
    unfold regAt at h
    split at h <;> cases h <;> rfl
  · rintro rfl
    cases r <;> rfl

/-- No register stands at 0x1C or from 0x6C on (R36). -/
theorem regAt_reserved {n : Nat} (h : n = 0x1C ∨ 0x6C ≤ n) : regAt n = none := by
  have hoff : ∀ r : RegName, r.offset ≠ 0x1C ∧ r.offset < 0x6C := by
    intro r
    cases r <;> decide
  refine Option.eq_none_iff_forall_ne_some.2 fun r hr => ?_
  have hn := regAt_eq_some_iff.1 hr
  have := hoff r
  omega

/-- A read of a reserved offset returns 0 (R36). -/
theorem portRead_reserved {off : BitVec 8} {s : State} (h : regAt off.toNat = none) : portRead off s = 0 := by
  simp [portRead, h]

/-- A word of two flags is the number they denote (the fields of IEN and MODE, R27, R29). -/
theorem toNat_twoFlags (hi lo : Bool) :
    (0#30 ++ BitVec.ofBool hi ++ BitVec.ofBool lo : Word).toNat = lo.toNat + 2 * hi.toNat := by
  cases hi <;> cases lo <;> rfl

/-- Settles O59: the offsets by evaluation, the reserved ones by `regAt_reserved`, and the fields by their widths. -/
theorem registerMapIsWrittenOut : Obligations.RegisterMapIsWrittenOut := by
  have hfield : ∀ {n : Nat} (_ : n ≤ 32) (x : BitVec n), (x.setWidth 32).toNat = x.toNat :=
    fun hn _ => BitVec.toNat_setWidth_of_le hn
  refine ⟨rfl, rfl, rfl, rfl, rfl, rfl, rfl, rfl, rfl, rfl, rfl, rfl, rfl, rfl, rfl, rfl, rfl, rfl, rfl, rfl, rfl,
    rfl, rfl, rfl, rfl, rfl, rfl, fun off h => regAt_reserved (.inr h), fun s => ?_⟩
  exact ⟨rfl, rfl, rfl, toNat_twoFlags s.regs.errIe s.regs.doneIe, hfield (by decide) s.regs.fmt,
    toNat_twoFlags s.regs.evenChk s.regs.engine, rfl, hfield (by decide) s.regs.width,
    hfield (by decide) s.regs.height, rfl, rfl, rfl, rfl, rfl, rfl, rfl, rfl, rfl, rfl, rfl, rfl, rfl, rfl,
    hfield (by decide) s.statMin, hfield (by decide) s.statMax, rfl⟩

/-! ### STATUS, the interrupt output and the reset state -/

/-- A flag joined to a word on the right is its bit 0. -/
theorem getLsbD_append_ofBool {n : Nat} (x : BitVec n) (b : Bool) (k : Nat) :
    (x ++ BitVec.ofBool b).getLsbD k = if k < 1 then b else x.getLsbD (k - 1) := by
  simp only [Nat.lt_one_iff]
  exact BitVec.getLsbD_concat x b k

/-- Zero bits joined to a word on the left change no bit of it. -/
theorem getLsbD_zero_append {m n : Nat} (x : BitVec n) (k : Nat) : (0#m ++ x).getLsbD k = x.getLsbD k := by
  rw [BitVec.getLsbD_append, BitVec.getLsbD_zero]
  split
  · rfl
  · next hk => exact (BitVec.getLsbD_of_ge x k (not_lt.1 hk)).symm

/-- The bits of STATUS from bit 0 up (R25). -/
theorem statusWord_getLsbD (s : State) (k : Nat) :
    s.statusWord.getLsbD k =
      if k < 1 then s.busy else if k < 2 then s.status.done else if k < 3 then s.status.ready
      else if k < 4 then s.status.wbv else if k < 5 then s.status.stv else if k < 6 then s.smv
      else if k < 7 then s.status.bwr else if k < 8 then false else s.errByte.getLsbD (k - 8) := by
  have hlt : ∀ m, (k - m < 1) = (k < m + 1) := fun m => propext (by omega)
  show BitVec.getLsbD (w := 16 + 8 + 1 + 1 + 1 + 1 + 1 + 1 + 1 + 1)
    (0#16 ++ s.errByte ++ BitVec.ofBool false ++ _ ++ _ ++ _ ++ _ ++ _ ++ _ ++ _) k = _
  iterate 8 rw [getLsbD_append_ofBool]
  rw [getLsbD_zero_append]
  simp only [Nat.sub_sub, hlt, Nat.reduceAdd]

/-- From bit 8 up STATUS is its field ERR (R25). -/
theorem statusWord_getLsbD_err (s : State) (k : Nat) : s.statusWord.getLsbD (8 + k) = s.errByte.getLsbD k := by
  have hnot : ∀ m ≤ 8, ¬ 8 + k < m := fun m hm => by omega
  simp [statusWord_getLsbD, hnot]

/-- Settles O54, by the place of each field in the word and the code of each error. -/
theorem statusWordLayout : Obligations.StatusWordLayout := by
  intro s
  have hbits := statusWord_getLsbD s
  have hreserved : s.statusWord.extractLsb' 16 16 = 0#16 := by
    ext k hk
    rw [BitVec.getElem_extractLsb', show 16 + k = 8 + (8 + k) by omega, statusWord_getLsbD_err,
      BitVec.getLsbD_of_ge _ _ (by omega), BitVec.getElem_zero]
  have herr : s.statusWord.extractLsb' 8 8 = s.errByte := by
    ext k hk
    rw [BitVec.getElem_extractLsb', statusWord_getLsbD_err, BitVec.getLsbD_eq_getElem hk]
  refine ⟨hbits 0, hbits 1, hbits 2, hbits 3, hbits 4, hbits 5, hbits 6, hbits 7, hreserved, herr.trans ?_⟩
  unfold State.errByte
  rcases s.status.err with _ | e
  · rfl
  · cases e <;> rfl
/-- Settles O55, by the two sources of R43. -/
theorem interruptIsALevelOfState : Obligations.InterruptIsALevelOfState := by
  intro s
  simp [State.irq, Option.isSome_iff_ne_none]

/-- Settles O10, by evaluation of the 64 offsets and of the reset column register by register. -/
theorem resetStateHoldsTheSpecsValues : Obligations.ResetStateHoldsTheSpecsValues := by
  have hoffsets : ∀ k < 64, k ≠ 0x00 / 4 → k ≠ 0x18 / 4 → k ≠ 0x60 / 4 →
      portRead (BitVec.ofNat 8 (4 * k)) State.reset = 0#32 := by decide
  have hregs : ∀ r : RegName, readReg r State.reset = resetWord r := fun r => by cases r <;> rfl
  exact ⟨rfl, rfl, rfl, hoffsets, hregs, rfl, rfl, rfl⟩

/-- Settles O33: every clause of the invariant holds of the reset values. -/
theorem resetStateHasTheInvariant : Obligations.ResetStateHasTheInvariant where
  memWf := Memory.reset_wf
  wbufRising := rfl
  readyFormat _ := rfl
  readyEngine hready := by cases hready
  readyGeometry hready := by cases hready
  packed hready := by cases hready
  statsOrdered hstv := by cases hstv
  smoothBound _ hq := by cases hq
  errNotDone _ := rfl
  runningWell _ hrun := by cases hrun

/-! ### The transactions of the port -/

/-- A step at a write to an offset that exists (R21) is that write. -/
theorem step_regWrite {s : State} {off : BitVec 8} {w : Word} {rest : List Event}
    (h : s.agenda = .regWrite off w :: rest) (hoff : off.toNat % 4 = 0) :
    step s = portWrite off w { s with agenda := rest } := by
  rw [step_cons h]
  simp [agentMove, offsetWf, hoff]

/-- A step at a read of an offset that exists (R21) keeps its word as the reply. -/
theorem step_regRead {s : State} {off : BitVec 8} {rest : List Event}
    (h : s.agenda = .regRead off :: rest) (hoff : off.toNat % 4 = 0) :
    step s = .next { s with agenda := rest, rdata := some (portRead off s) } := by
  rw [step_cons h]
  simp only [agentMove, offsetWf, hoff, beq_self_eq_true, if_true]
  rfl

/-- A write to a reserved offset while the engine is idle is ignored (R36). -/
theorem portWrite_reserved_idle {off : BitVec 8} {w : Word} {s : State} (hat : regAt off.toNat = none)
    (hidle : s.running = none) : portWrite off w s = .next s := by
  simp [portWrite, hat, State.busy, hidle]

/-- During BUSY a write that reaches no register is dropped and sets BWR (R36, R37). -/
theorem portWrite_busy {off : BitVec 8} {w : Word} {s : State} (hbusy : s.running ≠ none)
    (hat : ∀ r, regAt off.toNat = some r → writableWhileBusy r = false) :
    portWrite off w s = .next (dropWrite s) := by
  have hb : s.busy = true := Option.isSome_iff_ne_none.2 hbusy
  unfold portWrite
  split
  · rw [if_pos hb]
  · next r hr => rw [hb, hat r hr]; rfl

/-- A write to a register other than CMD that is not dropped (R23, R26, R27, R37, R96). -/
theorem portWrite_register {off : BitVec 8} {w : Word} {s : State} {r : RegName} (hat : regAt off.toNat = some r)
    (hreach : s.running = none ∨ writableWhileBusy r = true) (hcmd : r ≠ .cmd) :
    portWrite off w s = .next (writeReg r w s) := by
  have hnot : (s.busy && !writableWhileBusy r) = false := by
    rcases hreach with hidle | hbusy
    · simp [State.busy, hidle]
    · simp [hbusy]
  simp [portWrite, hat, hnot, hcmd]

/-- A write to CMD while the engine is idle issues a command (R110). -/
theorem portWrite_cmd {w : Word} {s : State} (hidle : s.running = none) : portWrite 0x04 w s = issue w s := by
  simp [portWrite, regAt, State.busy, hidle]

/-- STATUS, IEN and ID are the registers a write reaches during BUSY (R37). -/
theorem writableWhileBusy_iff {r : RegName} : writableWhileBusy r = true ↔ r = .status ∨ r = .ien ∨ r = .id := by
  simp [writableWhileBusy, or_assoc]

/-- The three write-one-to-clear bits of STATUS, each on its own field (R26). -/
theorem writeStatus_eq (w : Word) (s : State) :
    writeStatus w s = { s with
      status := { s.status with
        done := if w.getLsbD 1 = true then false else s.status.done
        bwr := if w.getLsbD 6 = true then false else s.status.bwr
        err := if w.getLsbD 8 = true then none else s.status.err } } := by
  unfold writeStatus
  cases w.getLsbD 1 <;> cases w.getLsbD 6 <;> cases w.getLsbD 8 <;> rfl

/-- A write to a register other than STATUS stores its fields and, where R38 says so, clears READY. -/
theorem writeReg_eq {r : RegName} (hr : r ≠ .status) (w : Word) (s : State) :
    writeReg r w s = { s with
      regs := storeReg r w s.regs
      status := { s.status with ready := if clearsReady r = true then false else s.status.ready } } := by
  unfold writeReg
  rw [if_neg hr]
  cases clearsReady r <;> rfl

/-- Settles O52: STATUS is reached also during BUSY, and the write is `writeStatus`. -/
theorem statusWriteClearsItsBits : Obligations.StatusWriteClearsItsBits := by
  intro s w rest hagenda
  have hwrite : portWrite 0x08 w { s with agenda := rest } = .next (writeStatus w { s with agenda := rest }) :=
    portWrite_register (r := .status) rfl (.inr rfl) (by decide)
  rw [step_regWrite hagenda rfl, hwrite, writeStatus_eq]

/-- Settles O56, by `regAt_reserved`. -/
theorem reservedOffsetsReadZero : Obligations.ReservedOffsetsReadZero := by
  intro s off w rest hoff hreserved
  have hat : regAt off.toNat = none :=
    regAt_reserved (hreserved.imp_left fun h => by rw [h]; rfl)
  refine ⟨portRead_reserved hat, fun hagenda => ⟨fun hidle => ?_, fun hbusy => ?_⟩⟩
  · rw [step_regWrite hagenda hoff]
    exact portWrite_reserved_idle hat hidle
  · rw [step_regWrite hagenda hoff]
    exact portWrite_busy hbusy fun r hr => by simp [hat] at hr

/-- Settles O51: an offset other than STATUS, IEN and ID names no register a write reaches during BUSY. -/
theorem writesDuringBusyAreDropped : Obligations.WritesDuringBusyAreDropped := by
  intro s off w rest hbusy hoff
  refine ⟨fun hagenda hstatus hien hid => ?dropped, fun hagenda => ?id, fun hagenda => ?ien,
    fun hagenda => step_regRead hagenda hoff⟩
  case dropped =>
    rw [step_regWrite hagenda hoff]
    refine portWrite_busy hbusy fun r hr => Bool.eq_false_iff.2 fun hreach => ?_
    have hn := regAt_eq_some_iff.1 hr
    rcases writableWhileBusy_iff.1 hreach with rfl | rfl | rfl
    · exact hstatus (BitVec.eq_of_toNat_eq hn)
    · exact hien (BitVec.eq_of_toNat_eq hn)
    · exact hid (BitVec.eq_of_toNat_eq hn)
  case id =>
    rw [step_regWrite hagenda rfl]
    exact portWrite_register (r := .id) rfl (.inr rfl) (by decide)
  case ien =>
    rw [step_regWrite hagenda rfl]
    exact portWrite_register (r := .ien) rfl (.inr rfl) (by decide)

/-- Settles O4: the offset 0x04 is CMD's, and a decoded word goes to `exec`. -/
theorem stepRunsTheIssuedCommand : Obligations.StepRunsTheIssuedCommand := by
  intro s w i rest hagenda hidle hdecode
  calc step s = portWrite 0x04 w { s with agenda := rest } := step_regWrite hagenda rfl
    _ = issue w { s with agenda := rest } := portWrite_cmd hidle
    _ = exec i { s with agenda := rest } := by simp [issue, hdecode]

/-! ### The shape of each command's meaning -/

/-- What each frame command adds to the shared sequencer (R130 to R134, R154, R160, R165, R180). The other commands run
no work-item: their body answers none. -/
def frameCmd (i : Instr) : FrameCmd :=
  match i with
  | .reduce => { setup := reduceSetup, body := reduceItem, finish := setStv true, onFault := setStv false }
  | .pack =>
    { setup := setWbv false, body := packItem, finish := setWbv true, onFault := fun s => wbufForget (setWbv false s) }
  | .map1 => { setup := id, body := mapItem v1, finish := id, onFault := id }
  | .map2 => { setup := map2Setup, body := map2Item, finish := setStv false, onFault := id }
  | .map3 => { setup := id, body := map3Item, finish := id, onFault := id }
  | .unpackp => { setup := id, body := unpackpItem, finish := id, onFault := id }
  | .unpackn => { setup := id, body := unpacknItem, finish := id, onFault := id }
  | .emit => { setup := id, body := emitItem, finish := id, onFault := id }
  | .kern3 => { setup := id, body := kern3Item, finish := id, onFault := id }
  | .nop => { setup := id, body := fun _ _ => none, finish := id, onFault := id }
  | .init => { setup := id, body := fun _ _ => none, finish := id, onFault := id }
  | .reset => { setup := id, body := fun _ _ => none, finish := id, onFault := id }

/-- Every frame command is the shared meaning with its own parts. -/
theorem exec_frame {i : Instr} (hi : isFrame i = true) (s : State) : exec i s = frameCommand i (frameCmd i) s := by
  cases i
  case nop | init | reset => cases hi
  all_goals rfl

/-- A frame command issued with READY 0 reports NOT_READY before anything else (R111, R195). -/
theorem exec_frame_notReady {i : Instr} {s : State} (hi : isFrame i = true) (hidle : s.running = none)
    (herr : s.status.err = none) (hready : s.status.ready = false) :
    exec i s = .next { s with status := { s.status with done := false, err := some .notReady } } := by
  have hprologue : prologue i (frameCmd i).setup (setDone false s) = .next (raiseError .notReady (setDone false s)) :=
    if_pos hready
  rw [exec_frame hi, frameCommand_idle hidle herr, hprologue]
  simp [raiseError, onStatus, hidle, herr]

/-- Settles O53: the four offsets name the registers whose write clears READY, and the prologue tests READY first. -/
theorem geometryWriteClearsReady : Obligations.GeometryWriteClearsReady := by
  intro s off w rest hagenda hidle hoff
  obtain ⟨r, hat, hclears⟩ : ∃ r, regAt off.toNat = some r ∧ clearsReady r = true := by
    rcases hoff with rfl | rfl | rfl | rfl
    exacts [⟨.format, rfl, rfl⟩, ⟨.mode, rfl, rfl⟩, ⟨.width, rfl, rfl⟩, ⟨.height, rfl, rfl⟩]
  have hcmd : r ≠ .cmd := by rintro rfl; cases hclears
  have hstatus : r ≠ .status := by rintro rfl; cases hclears
  have haligned : off.toNat % 4 = 0 := by rcases hoff with rfl | rfl | rfl | rfl <;> rfl
  have hready : (writeReg r w { s with agenda := rest }).status.ready = false := by
    rw [writeReg_eq hstatus]; exact if_pos hclears
  have hstill : (writeReg r w { s with agenda := rest }).running = none := by
    rw [writeReg_eq hstatus]; exact hidle
  refine ⟨writeReg r w { s with agenda := rest }, ?_, hready,
    fun i hi herr => exec_frame_notReady hi hstill herr hready⟩
  rw [step_regWrite hagenda haligned]
  exact portWrite_register hat (.inl hidle) hcmd

end Sys2Proof.Machine
end

section
/-! PROOFS. The family of `10_state.md`, second part: all that one step can do, said once (R7, R21, R37, R110 to R116,
R220), and what follows for READY (R25, R38) and SMOOTH (R40, R227). -/

namespace Sys2Proof.Machine

/-! ### The parts of the frame commands, one equation each -/

/-- What acceptance sets: REDUCE its accumulators and STV, PACK its WBV, MAP2 its SMOOTH (R130, R131, R160). -/
theorem frameCmd_setup (i : Instr) (s : State) :
    (frameCmd i).setup s = { s with
      status := { s.status with
        wbv := if i = .pack then false else s.status.wbv
        stv := if i = .reduce then false else s.status.stv }
      statMin := if i = .reduce then 255 else s.statMin
      statMax := if i = .reduce then 0 else s.statMax
      smooth := if i = .map2 then some (smoothMix s.smooth (mixNew s.statMin s.statMax)) else s.smooth } := by
  cases i <;> rfl

/-- What the final action sets: PACK its WBV, REDUCE its STV; MAP2 consumes STV (R113). -/
theorem frameCmd_finish (i : Instr) (s : State) :
    (frameCmd i).finish s = { s with
      status := { s.status with
        wbv := if i = .pack then true else s.status.wbv
        stv := if i = .reduce then true else if i = .map2 then false else s.status.stv } } := by
  cases i <;> rfl

/-- What the fault path leaves besides the footprint: PACK loses WBV and the contents of WBUF, REDUCE loses STV
(R113). -/
theorem frameCmd_onFault (i : Instr) (s : State) :
    (frameCmd i).onFault s = { s with
      status := { s.status with
        wbv := if i = .pack then false else s.status.wbv
        stv := if i = .reduce then false else s.status.stv }
      wbuf := if i = .pack then [] else s.wbuf
      freeCtr := if i = .pack then s.freeCtr + 1 else s.freeCtr } := by
  cases i <;> rfl

/-! ### The body of a completed work-item -/

/-- What the completed body of the work-item `g` of command `i` did: it wrote to MEM, WBUF and the statistics alone,
kept the canonical forms, dropped no pixel, and left ordered statistics (REDUCE, R130) or its own pixel (PACK, R131). -/
structure ItemEffect (i : Instr) (g : Nat) (s t : State) : Prop where
  frame : t = { s with mem := t.mem, wbuf := t.wbuf, statMin := t.statMin, statMax := t.statMax }
  memWf : s.mem.wf = true → t.mem.wf = true
  wbufRising : sparseRising none s.wbuf = true → sparseRising none t.wbuf = true
  pixelsKept : ∀ a, (sparseFind s.wbuf a).isSome = true → (sparseFind t.wbuf a).isSome = true
  statsKept : i ≠ .reduce → t.statMin = s.statMin ∧ t.statMax = s.statMax
  statsOrdered : i = .reduce → t.statMin.toNat ≤ t.statMax.toNat
  pixelWritten : i = .pack → (sparseFind t.wbuf g).isSome = true

/-- Inserting a pixel drops none. -/
theorem isSome_sparseFind_insert {α : Type} {l : List (Nat × α)} {a : Nat} (g : Nat) (p : α)
    (h : (sparseFind l a).isSome = true) : (sparseFind (sparseInsert l g p) a).isSome = true := by
  by_cases hga : g = a
  · rw [hga, sparseFind_insert_same]; rfl
  · rwa [sparseFind_insert_other l p hga]

/-- A work-item that writes its own pixel and nothing else. -/
theorem ItemEffect.of_wbufWrite {i : Instr} (hi : i ≠ .reduce) (g : Nat) (p : Pixel) (s : State) :
    ItemEffect i g s (wbufWrite g p s) where
  frame := rfl
  memWf := id
  wbufRising := sparseRising_insert s.wbuf g p none (by simp)
  pixelsKept _ := isSome_sparseFind_insert g p
  statsKept _ := ⟨rfl, rfl⟩
  statsOrdered h := absurd h hi
  pixelWritten _ := by simp

/-- A work-item that writes frame memory and nothing else. -/
theorem ItemEffect.of_memory {i : Instr} {g : Nat} {s t : State} (hreduce : i ≠ .reduce) (hpack : i ≠ .pack)
    (hframe : t = { s with mem := t.mem }) (hmem : s.mem.wf = true → t.mem.wf = true) : ItemEffect i g s t := by
  have hwbuf : t.wbuf = s.wbuf := by rw [hframe]
  have hmin : t.statMin = s.statMin := by rw [hframe]
  have hmax : t.statMax = s.statMax := by rw [hframe]
  exact
    { frame := by rw [hwbuf, hmin, hmax]; exact hframe
      memWf := hmem
      wbufRising := fun h => by rwa [hwbuf]
      pixelsKept := fun a h => by rwa [hwbuf]
      statsKept := fun _ => ⟨hmin, hmax⟩
      statsOrdered := fun h => absurd h hreduce
      pixelWritten := fun h => absurd h hpack }

/-- Taking in a sample leaves ordered statistics, whatever they were: the sample lies between them (R130). -/
theorem accumulate_ordered (y : Byte) (s : State) :
    (accumulate y s).statMin.toNat ≤ (accumulate y s).statMax.toNat := by
  have hmin : (accumulate y s).statMin.toNat ≤ y.toNat := by
    rw [accumulate_statMin]; split <;> omega
  have hmax : y.toNat ≤ (accumulate y s).statMax.toNat := by
    rw [accumulate_statMax]; split <;> omega
  exact hmin.trans hmax

/-- The writes to the destination planes lie in the address space (R69). -/
theorem writePlanes_memWf {x : WorkItem} {y a b : Byte} {s t : State} (h : writePlanes x y a b s = some t)
    (hmem : s.mem.wf = true) : t.mem.wf = true := by
  have hluma := Memory.write_wf s.mem _ y (planeAddr_lt s.regs.dstY x.row x.col) hmem
  rw [(writePlanes_eq_some h).2]
  split
  · exact Memory.write_wf _ _ b (planeAddr_lt _ _ _) (Memory.write_wf _ _ a (planeAddr_lt _ _ _) hluma)
  · exact hluma

/-- The writes of EMIT lie in the address space (R69). -/
theorem emitItem_memWf {x : WorkItem} {s t : State} (h : emitItem x s = some t) (hmem : s.mem.wf = true) :
    t.mem.wf = true := by
  rw [(emitItem_eq_some h).2]
  exact Memory.write_wf _ _ _ (pixelAddr_lt _ _ _ _) (Memory.write_wf _ _ _ (pixelAddr_lt _ _ _ _)
    (Memory.write_wf _ _ _ (pixelAddr_lt _ _ _ _) (Memory.write_wf _ _ _ (pixelAddr_lt _ _ _ _) hmem)))

/-- Every completed body has the effect of its work-item. -/
theorem frameCmd_body_effect {i : Instr} {width g : Nat} {s t : State}
    (h : (frameCmd i).body (workItem width g) s = some t) : ItemEffect i g s t := by
  cases i
  case nop | init | reset => cases h
  case reduce =>
    rw [reduceItem_eq_some h]
    exact
      { frame := rfl, memWf := id, wbufRising := id, pixelsKept := fun _ => id
        statsKept := fun hne => absurd rfl hne, statsOrdered := fun _ => accumulate_ordered _ s
        pixelWritten := fun hpack => by cases hpack }
  case pack =>
    rw [packItem_eq_some h]
    exact .of_wbufWrite (by decide) _ _ s
  case map1 | map2 | map3 =>
    cases h
    exact .of_wbufWrite (by decide) _ _ s
  case unpackp | unpackn =>
    exact .of_memory (by decide) (by decide) (writePlanes_eq_some h).1 (writePlanes_memWf h)
  case emit => exact .of_memory (by decide) (by decide) (emitItem_eq_some h).1 (emitItem_memWf h)
  case kern3 =>
    have hplanes := kern3Item_eq_some h
    exact .of_memory (by decide) (by decide) (writePlanes_eq_some hplanes).1 (writePlanes_memWf hplanes)

/-- The state after a completed work-item, written out. -/
theorem ItemEffect.itemDone_eq {i : Instr} {g : Nat} {s t : State} (h : ItemEffect i g s t) :
    itemDone g t = { s with
      mem := t.mem, wbuf := t.wbuf, statMin := t.statMin, statMax := t.statMax
      todo := s.todo.erase g, gid := s.gid + 1 } :=
  congrArg (itemDone g) h.frame

/-! ### One turn of the engine -/

theorem exec_nop (s : State) :
    exec .nop s = controlCommand (fun s => if s.status.err.isSome then s else setDone true s) s := rfl

theorem exec_init (s : State) : exec .init s = controlCommand (fun s => initCheck (initClear s)) s := rfl

theorem exec_reset (s : State) : exec .reset s = controlCommand resetState s := rfl

/-- A command written during BUSY is dropped (R110 step 1). -/
theorem controlCommand_busy {act : State → State} {s : State} {i : Instr} (h : s.running = some i) :
    controlCommand act s = .next (dropWrite s) := by
  simp [controlCommand, h]

/-- `exec` of the running command is a turn of the engine; a command that runs no work-item never runs, and were it to
stand there, nothing would move but BWR. -/
theorem exec_running {i : Instr} {s : State} (h : s.running = some i) :
    exec i s = .next (if isFrame i = true then engineTurn i (frameCmd i) s else dropWrite s) := by
  split
  · next hi => rw [exec_frame hi, frameCommand_running h]
  · next hi =>
    cases i
    case nop => rw [exec_nop, controlCommand_busy h]
    case init => rw [exec_init, controlCommand_busy h]
    case reset => rw [exec_reset, controlCommand_busy h]
    all_goals exact absurd rfl hi

/-- A turn of the engine leaves READY and SMOOTH alone (R38, R40). -/
theorem engineTurn_ready_smooth (i : Instr) (s : State) :
    (engineTurn i (frameCmd i) s).status.ready = s.status.ready ∧
      (engineTurn i (frameCmd i) s).smooth = s.smooth := by
  rcases engineTurn_cases i (frameCmd i) s with ⟨-, h⟩ | ⟨g, t, -, hbody, h⟩ | ⟨g, -, -, h⟩
  · rw [h, frameCmd_finish]; exact ⟨rfl, rfl⟩
  · rw [h, (frameCmd_body_effect hbody).itemDone_eq]; exact ⟨rfl, rfl⟩
  · rw [h, faultPath, frameCmd_onFault]; exact ⟨rfl, rfl⟩

/-! ### The issue of a command -/

/-- The state in which a frame command that may be launched starts (R111 step 5). -/
def launch (i : Instr) (s : State) : State :=
  (frameCmd i).setup { setDone false s with running := some i, gid := 0, todo := List.range s.n }

/-- All that the word `w` written to CMD while the engine is idle can do (R110). -/
inductive IssueEffect (w : Word) (s : State) : State → Prop
  /-- A word is ignored while an error is latched (R110 step 2). -/
  | ignored : IssueEffect w s s
  /-- NOP sets DONE (R114). -/
  | nop (herr : s.status.err = none) : IssueEffect w s (setDone true s)
  /-- An illegal word, or an error of the prologue (R111, R194). -/
  | error (e : ErrorKind) (herr : s.status.err = none) : IssueEffect w s (raiseError e (setDone false s))
  /-- INIT clears and checks (R115). -/
  | init (hw : decode w = .ok .init) : IssueEffect w s (initCheck (initClear s))
  /-- RESET (R116). -/
  | reset (hw : decode w = .ok .reset) : IssueEffect w s (resetState s)
  /-- A frame command is accepted (R111 step 5). -/
  | accepted (i : Instr) (hw : decode w = .ok i) (hl : Launchable i s) : IssueEffect w s (launch i s)

/-- All that the issue of a frame command can do (R110 step 2, R111). -/
theorem frame_issueEffect {i : Instr} {w : Word} {s t : State} (hw : decode w = .ok i) (hi : isFrame i = true)
    (hidle : s.running = none) (h : exec i s = .next t) : IssueEffect w s t := by
  rw [exec_frame hi] at h
  rcases herr : s.status.err with _ | e
  · rw [frameCommand_idle hidle herr] at h
    rcases prologue_cases i (frameCmd i).setup (setDone false s) with
      ⟨-, hp⟩ | ⟨-, -, hp⟩ | ⟨-, -, -, -, hp⟩ | ⟨hready, hwbv, hstv, hstrides, hp⟩
    · rw [hp] at h; cases h; exact .error _ herr
    · rw [hp] at h; cases h; exact .error _ herr
    · rw [hp] at h; cases h; exact .error _ herr
    · rw [hp] at h
      rcases acceptFrame_cases i (frameCmd i).setup (setDone false s) with
        ⟨-, ha⟩ | ⟨-, ha⟩ | ⟨hoverlap, hplain, ha⟩
      · rw [ha] at h; cases h
      · rw [ha] at h; cases h
      · rw [ha] at h; cases h
        exact .accepted i hw ⟨hi, hidle, herr, hready, hwbv, hstv, hstrides, hoverlap, hplain⟩
  · rw [frameCommand_latched hidle (by rw [herr]; rfl)] at h
    cases h
    exact .ignored

/-- All that the issue of a command can do. -/
theorem issue_effect {w : Word} {s t : State} (hidle : s.running = none) (h : issue w s = .next t) :
    IssueEffect w s t := by
  unfold issue at h
  split at h
  · next i hw =>
    by_cases hi : isFrame i = true
    · exact frame_issueEffect hw hi hidle h
    · cases i
      case nop =>
        rw [exec_nop, controlCommand_idle hidle] at h
        cases h
        rcases herr : s.status.err with _ | e
        · exact .nop herr
        · exact .ignored
      case init =>
        rw [exec_init, controlCommand_idle hidle] at h
        cases h; exact .init hw
      case reset =>
        rw [exec_reset, controlCommand_idle hidle] at h
        cases h; exact .reset hw
      all_goals exact absurd rfl hi
  · rw [illegalCommand, controlCommand_idle hidle] at h
    cases h
    rcases herr : s.status.err with _ | e
    · exact .error _ herr
    · exact .ignored

/-! ### One step -/

/-- The state without what neither a running command nor the invariant looks at: the coming moves, the engine's choice,
the replies, BWR and the bits of IEN. -/
def State.stripped (s : State) : State :=
  { s with
    agenda := [], pick := 0, rdata := none, mdata := none
    regs := { s.regs with doneIe := false, errIe := false }, status := { s.status with bwr := false } }

/-- All that one step can do, where `moves` are the coming moves and `u` is the state with the first of them taken. -/
inductive StepEffect (moves : List Event) (u : State) : State → Prop
  /-- A read, a dropped or ignored write, a write to IEN during BUSY, an idle turn: nothing else moves. -/
  | quiet {t : State} (h : t.stripped = u.stripped) : StepEffect moves u t
  /-- The host writes frame memory (R222 step 6). -/
  | memWrite (a : Word) (v : Byte) {rest : List Event} (hm : moves = .memWrite a v :: rest) :
      StepEffect moves u { u with mem := u.mem.write a.toNat v }
  /-- The hardware reset (R220). -/
  | hardReset {rest : List Event} (hm : moves = .hardReset :: rest) : StepEffect moves u (hardReset u)
  /-- A write to STATUS (R26). -/
  | statusWrite (w : Word) {rest : List Event} (hm : moves = .regWrite 0x08 w :: rest) :
      StepEffect moves u (writeStatus w u)
  /-- A write to another register than CMD while the engine is idle (R96). -/
  | regWrite (r : RegName) {off : BitVec 8} (w : Word) {rest : List Event} (hm : moves = .regWrite off w :: rest)
      (hat : regAt off.toNat = some r) (hidle : u.running = none) (hstatus : r ≠ .status) (hcmd : r ≠ .cmd) :
      StepEffect moves u (writeReg r w u)
  /-- A command word written while the engine is idle (R110). -/
  | issue {w : Word} {rest : List Event} {t : State} (hm : moves = .regWrite 0x04 w :: rest) (hidle : u.running = none)
      (hi : IssueEffect w u t) : StepEffect moves u t
  /-- A turn of the engine on the running command (R112). -/
  | turn (i : Instr) (hm : moves = [] ∨ ∃ k rest, moves = .engine k :: rest) (hrun : u.running = some i)
      (hframe : isFrame i = true) : StepEffect moves u (engineTurn i (frameCmd i) u)

/-- All that a write to the register port can do (R36, R37, R96, R110). -/
theorem portWrite_effect {off : BitVec 8} {w : Word} {rest : List Event} {u t : State}
    (h : portWrite off w u = .next t) : StepEffect (.regWrite off w :: rest) u t := by
  by_cases hidle : u.running = none
  · rcases hat : regAt off.toNat with _ | r
    · rw [portWrite_reserved_idle hat hidle] at h
      cases h; exact .quiet rfl
    · have hoff : off.toNat = r.offset := regAt_eq_some_iff.1 hat
      by_cases hcmd : r = .cmd
      · obtain rfl : off = 0x04 := BitVec.eq_of_toNat_eq (by rw [hoff, hcmd]; rfl)
        rw [portWrite_cmd hidle] at h
        exact .issue rfl hidle (issue_effect hidle h)
      · rw [portWrite_register hat (.inl hidle) hcmd] at h
        cases h
        by_cases hstatus : r = .status
        · obtain rfl : off = 0x08 := BitVec.eq_of_toNat_eq (by rw [hoff, hstatus]; rfl)
          rw [hstatus]
          exact .statusWrite w rfl
        · exact .regWrite r w rfl hat hidle hstatus hcmd
  · by_cases hreach : ∃ r, regAt off.toNat = some r ∧ writableWhileBusy r = true
    · obtain ⟨r, hat, hr⟩ := hreach
      rw [portWrite_register hat (.inr hr) (by rintro rfl; cases hr)] at h
      cases h
      rcases writableWhileBusy_iff.1 hr with rfl | rfl | rfl
      · obtain rfl : off = 0x08 := BitVec.eq_of_toNat_eq (regAt_eq_some_iff.1 hat)
        exact .statusWrite w rfl
      · exact .quiet rfl
      · exact .quiet rfl
    · have hdropped : ∀ r, regAt off.toNat = some r → writableWhileBusy r = false := by
        simpa using hreach
      rw [portWrite_busy hidle hdropped] at h
      cases h; exact .quiet rfl

/-- All that a turn of the engine can do, a busy one and an idle one. -/
theorem engineMove_effect {k : Nat} {moves : List Event} {u t : State}
    (hm : moves = [] ∨ ∃ k rest, moves = .engine k :: rest) (h : engineMove k u = .next t) :
    ∃ v : State, v.stripped = u.stripped ∧ StepEffect moves v t := by
  rcases hrun : u.running with _ | i
  · rw [engineMove_idle hrun] at h
    cases h; exact ⟨u, rfl, .quiet rfl⟩
  · rw [engineMove_running hrun, exec_running (s := { u with pick := k }) hrun] at h
    refine ⟨{ u with pick := k }, rfl, ?_⟩
    cases h
    split
    · next hi => exact .turn i hm hrun hi
    · exact .quiet rfl

/-- All that the host's write of frame memory can do, where it is not refused (R76). -/
theorem hostMemWrite_eq_next {a : Word} {v : Byte} {u t : State} (h : hostMemWrite a v u = .next t) :
    t = { u with mem := u.mem.write a.toNat v } := by
  unfold hostMemWrite at h
  split at h
  · split at h <;> cases h; rfl
  · cases h; rfl

/-- All that the host's read of frame memory can do, where it is not refused (R76). -/
theorem hostMemRead_eq_next {a : Word} {u t : State} (h : hostMemRead a u = .next t) : t.stripped = u.stripped := by
  unfold hostMemRead at h
  split at h
  · split at h <;> cases h; rfl
  · cases h; rfl

/-- All that one step can do. -/
theorem step_effect {s t : State} (h : step s = .next t) :
    ∃ u : State, u.stripped = s.stripped ∧ StepEffect s.agenda u t := by
  rcases hm : s.agenda with _ | ⟨e, rest⟩
  · rw [step_nil hm] at h
    exact engineMove_effect (.inl rfl) h
  · rw [step_cons hm] at h
    have hu : ({ s with agenda := rest } : State).stripped = s.stripped := rfl
    cases e with
    | regWrite off w =>
      rw [agentMove] at h
      split at h
      · exact ⟨_, hu, portWrite_effect h⟩
      · cases h
    | regRead off =>
      rw [agentMove] at h
      split at h
      · cases h; exact ⟨_, hu, .quiet rfl⟩
      · cases h
    | memWrite a v => rw [hostMemWrite_eq_next h]; exact ⟨_, hu, .memWrite a v rfl⟩
    | memRead a => exact ⟨_, hu, .quiet (hostMemRead_eq_next h)⟩
    | hardReset => cases h; exact ⟨_, hu, .hardReset rfl⟩
    | engine k =>
      obtain ⟨v, hv, hstep⟩ := engineMove_effect (.inr ⟨k, rest, rfl⟩) h
      exact ⟨v, hv.trans hu, hstep⟩

/-! ### READY and SMOOTH -/

section
variable {s t : State} (h : t.stripped = s.stripped)
include h

theorem ready_of_stripped : t.status.ready = s.status.ready := congrArg (·.status.ready) h
theorem smooth_of_stripped : t.smooth = s.smooth := congrArg (·.smooth) h
theorem running_of_stripped : t.running = s.running := congrArg (·.running) h

end

/-- The hardware reset gives READY and SMOOTH their reset values, whatever ran (R220). -/
theorem hardReset_ready_smooth (s : State) : (hardReset s).status.ready = false ∧ (hardReset s).smooth = none := by
  unfold hardReset
  split <;> exact ⟨rfl, rfl⟩

/-- INIT leaves SMOOTH unset, whatever its checks find (R115). -/
theorem init_smooth (s : State) : (initCheck (initClear s)).smooth = none := by
  rcases initCheck_cases (initClear s) with ⟨-, h⟩ | ⟨-, -, h⟩ | ⟨-, -, -, h⟩ | ⟨-, -, -, h⟩ <;> rw [h] <;> rfl

/-- Settles O36: of all that a step can do, only the issue of INIT sets READY. -/
theorem onlyInitMakesReady : Obligations.OnlyInitMakesReady := by
  intro s t hready hstep htrue
  obtain ⟨u, hu, heffect⟩ := step_effect hstep
  rw [← ready_of_stripped hu] at hready
  have hsame : t.status.ready ≠ u.status.ready := by rw [hready, htrue]; decide
  cases heffect with
  | quiet h => exact absurd (ready_of_stripped h) hsame
  | memWrite a v => exact absurd rfl hsame
  | hardReset => rw [(hardReset_ready_smooth u).1] at htrue; cases htrue
  | statusWrite w => rw [writeStatus_eq] at hsame; exact absurd rfl hsame
  | regWrite r w hm hat hidle hstatus =>
    rw [writeReg_eq hstatus] at htrue
    simp [hready] at htrue
  | turn i => exact absurd (engineTurn_ready_smooth i u).1 hsame
  | issue hm hidle hi =>
    cases hi with
    | init hw => exact ⟨_, _, hm, by rw [← running_of_stripped hu]; exact hidle, hw⟩
    | reset => cases htrue
    | accepted i => rw [launch, frameCmd_setup] at hsame; exact absurd rfl hsame
    | ignored | nop | error => exact absurd rfl hsame

/-- Settles O37: of all that a step can do, the acceptance of MAP2 sets SMOOTH, and INIT and the resets unset it. -/
theorem smoothingChangesOncePerMap2 : Obligations.SmoothingChangesOncePerMap2 := by
  intro s t hstep hchanged
  obtain ⟨u, hu, heffect⟩ := step_effect hstep
  rw [← smooth_of_stripped hu] at hchanged
  have hunset : ∀ v : State, v.smooth = none → v.smv = false := fun v hv => by rw [State.smv, hv]; rfl
  cases heffect with
  | quiet h => exact absurd (smooth_of_stripped h) hchanged
  | memWrite a v => exact absurd rfl hchanged
  | hardReset hm => exact .inr ⟨_, hm, hunset _ (hardReset_ready_smooth u).2⟩
  | statusWrite w => rw [writeStatus_eq] at hchanged; exact absurd rfl hchanged
  | regWrite r w hm hat hidle hstatus => rw [writeReg_eq hstatus] at hchanged; exact absurd rfl hchanged
  | turn i => exact absurd (engineTurn_ready_smooth i u).2 hchanged
  | issue hm hidle hi =>
    refine .inl ⟨_, _, hm, by rw [← running_of_stripped hu]; exact hidle, ?_⟩
    cases hi with
    | init hw => exact .inr ⟨.inl hw, hunset _ (init_smooth u)⟩
    | reset hw => exact .inr ⟨.inr hw, rfl⟩
    | accepted i hw =>
      have hmap2 : i = .map2 := by
        by_contra hne
        rw [launch, frameCmd_setup] at hchanged
        exact hchanged (if_neg hne)
      subst hmap2
      exact .inl ⟨hw, rfl, rfl⟩
    | ignored | nop | error => exact absurd rfl hchanged

end Sys2Proof.Machine
end

section
/-! PROOFS. The family of `10_state.md`, third part: every step keeps the invariant of the machine (R25, R38, R39, R112,
R130, R161, R202), effect by effect. -/

namespace Sys2Proof.Machine

/-! ### The blend portion lies in [1, 2] -/

/-- The fresh blend portion of ordered statistics lies in [1, 2], since the fourth power of a number in [0, 1]
lies in [0, 1] (R155). -/
theorem mixNew_bounds {mn mx : Byte} (h : mn.toNat ≤ mx.toNat) : 1 ≤ mixNew mn mx ∧ mixNew mn mx ≤ 2 := by
  have hmn : (0 : Rat) ≤ byteQ mn := Nat.cast_nonneg _
  have hmx : byteQ mx ≤ 255 := by
    have : mx.toNat ≤ 255 := by omega
    exact Nat.cast_le.2 this
  have hle : byteQ mn ≤ byteQ mx := Nat.cast_le.2 h
  have hx0 : 0 ≤ 1 - (byteQ mx - byteQ mn) / 255 := by linarith
  have hx1 : 1 - (byteQ mx - byteQ mn) / 255 ≤ 1 := by linarith
  have hp0 := pow_nonneg hx0 4
  have hp1 := pow_le_one₀ (n := 4) hx0 hx1
  unfold mixNew
  constructor <;> linarith

/-- Smoothing stays in [1, 2], as a mean of two portions that do (R156, R161). -/
theorem smoothMix_bounds {prev : Option Rat} {new : Rat} (hprev : ∀ q, prev = some q → 1 ≤ q ∧ q ≤ 2)
    (hnew : 1 ≤ new ∧ new ≤ 2) : 1 ≤ smoothMix prev new ∧ smoothMix prev new ≤ 2 := by
  rcases prev with _ | q
  · exact hnew
  · have hq := hprev q rfl
    unfold smoothMix
    constructor <;> linarith

/-! ### What the invariant looks at -/

/-- The geometry check looks at the dimensions, MODE.EVENCHK and the capacity alone (R196). -/
theorem geometryOk_congr {s t : State} (hcfg : t.cfg = s.cfg) (hw : t.regs.width = s.regs.width)
    (hh : t.regs.height = s.regs.height) (he : t.regs.evenChk = s.regs.evenChk) : geometryOk t = geometryOk s := by
  rw [Bool.eq_iff_iff, geometryOk_iff, geometryOk_iff]
  simp only [State.n, State.w, State.h, hcfg, hw, hh, he]

/-- There are fewer work-items than words (R31, R35). -/
theorem State.n_lt (s : State) : s.n < 2 ^ 32 :=
  calc s.n ≤ (2 ^ 16 - 1) * (2 ^ 16 - 1) :=
        Nat.mul_le_mul (Nat.le_sub_one_of_lt s.regs.width.isLt) (Nat.le_sub_one_of_lt s.regs.height.isLt)
    _ < 2 ^ 32 := by decide

/-- Every address of a write footprint lies in the address space (R69, R72). -/
theorem writeFootprint_lt {i : Instr} {s : State} : ∀ a ∈ writeFootprint i s, a < 2 ^ 32 := by
  intro a ha
  obtain ⟨region, hregion, hmem⟩ := List.mem_flatten.1 ha
  have hplane : ∀ p rows cols, region = planeRegion p rows cols → a < 2 ^ 32 := by
    rintro p rows cols rfl
    obtain ⟨r, -, c, -, rfl⟩ := mem_planeRegion.1 hmem
    exact planeAddr_lt p r c
  have hplanes : region ∈ dstPlanes s → a < 2 ^ 32 := by
    intro hdst
    simp only [dstPlanes, List.mem_cons, List.not_mem_nil, or_false] at hdst
    rcases hdst with h | h | h <;> exact hplane _ _ _ h
  cases i
  case unpackp | unpackn | kern3 => exact hplanes hregion
  case emit =>
    obtain rfl := List.mem_singleton.1 hregion
    obtain ⟨r, -, c, -, k, -, rfl⟩ := mem_pixelRegion.1 hmem
    exact pixelAddr_lt _ r c k
  all_goals cases hregion

/-- Free bytes in a command's write footprint keep the canonical form of memory. -/
theorem scrambleFootprint_memWf (i : Instr) {s : State} (h : s.mem.wf = true) :
    (scrambleFootprint i s).mem.wf = true :=
  scrambleMem_wf s.freeCtr _ s.mem writeFootprint_lt h

/-- The invariant does not look at what `State.stripped` takes away. -/
theorem inv_stripped_iff (s : State) : s.stripped.Inv ↔ s.Inv where
  mp h := { h with runningWell := fun i hi => { h.runningWell i hi with } }
  mpr h := { h with runningWell := fun i hi => { h.runningWell i hi with } }

theorem inv_of_stripped {s t : State} (h : t.stripped = s.stripped) (hs : s.Inv) : t.Inv := by
  rw [← inv_stripped_iff] at hs ⊢
  rwa [h]

/-! ### The moves of the host -/

/-- The host's write of frame memory keeps the invariant. -/
theorem State.Inv.memWrite {s : State} (h : s.Inv) (a : Word) (v : Byte) :
    ({ s with mem := s.mem.write a.toNat v } : State).Inv :=
  { h with
    memWf := Memory.write_wf s.mem _ v a.isLt h.memWf
    runningWell := fun i hi => { h.runningWell i hi with } }

/-- A write to STATUS only clears, and so keeps the invariant. -/
theorem State.Inv.writeStatus {s : State} (h : s.Inv) (w : Word) : (writeStatus w s).Inv := by
  rw [writeStatus_eq]
  exact
    { h with
      errNotDone := fun herr => by
        have hdone : s.status.done = false := h.errNotDone fun hnone => herr (by simp [hnone])
        simp [hdone]
      runningWell := fun i hi =>
        { h.runningWell i hi with
          noErr := by simp [(h.runningWell i hi).noErr]
          notDone := by simp [(h.runningWell i hi).notDone] } }

/-- A write that leaves READY alone leaves alone what INIT has checked (R38). -/
theorem storeReg_checked {r : RegName} (hr : clearsReady r = false) (w : Word) (g : Regs) :
    (storeReg r w g).fmt = g.fmt ∧ (storeReg r w g).engine = g.engine ∧ (storeReg r w g).evenChk = g.evenChk ∧
      (storeReg r w g).width = g.width ∧ (storeReg r w g).height = g.height := by
  cases r
  case format | mode | width | height => cases hr
  all_goals exact ⟨rfl, rfl, rfl, rfl, rfl⟩

/-- A write to another register while the engine is idle keeps the invariant: it clears READY or leaves alone what READY
speaks of. -/
theorem State.Inv.writeReg {s : State} (h : s.Inv) {r : RegName} (hr : r ≠ .status) (hidle : s.running = none)
    (w : Word) : (writeReg r w s).Inv := by
  rw [writeReg_eq hr]
  rcases hclears : clearsReady r with _ | _
  · obtain ⟨hfmt, hengine, heven, hwidth, hheight⟩ := storeReg_checked hclears w s.regs
    exact
      { h with
        readyFormat := fun hready => hfmt.trans (h.readyFormat hready)
        readyEngine := fun hready he => h.readyEngine hready (hengine.symm.trans he)
        readyGeometry := fun hready =>
          Eq.trans (geometryOk_congr (s := s) rfl hwidth hheight heven) (h.readyGeometry hready)
        packed := fun hready hwbv g hg => h.packed hready hwbv g (by
          simpa only [State.n, State.w, State.h, hwidth, hheight] using hg)
        runningWell := fun i hi => by cases hidle.symm.trans hi }
  · exact
      { h with
        readyFormat := fun hready => by cases hready
        readyEngine := fun hready => by cases hready
        readyGeometry := fun hready => by cases hready
        packed := fun hready => by cases hready
        runningWell := fun i hi => by cases hidle.symm.trans hi }

/-- The reset values have the invariant over any memory in canonical form (R45, R116). -/
theorem resetState_inv {s : State} (hmem : s.mem.wf = true) : (resetState s).Inv :=
  { resetStateHasTheInvariant with
    memWf := hmem
    readyEngine := fun hready => by cases hready
    readyGeometry := fun hready => by cases hready
    packed := fun hready => by cases hready
    runningWell := fun _ hrun => by cases hrun }

/-- The hardware reset gives the invariant, also where it ends a running command (R220). -/
theorem State.Inv.hardReset {s : State} (h : s.Inv) : (hardReset s).Inv := by
  unfold Machine.hardReset
  split
  · exact resetState_inv h.memWf
  · exact resetState_inv (scrambleFootprint_memWf _ h.memWf)

/-! ### The issue of a command -/

/-- An error latched while the engine is idle keeps the invariant: DONE is cleared with it (R202). -/
theorem State.Inv.raiseError {s : State} (h : s.Inv) (e : ErrorKind) : (raiseError e (setDone false s)).Inv :=
  { h with
    errNotDone := fun _ => rfl
    runningWell := fun i hi => by cases hi }

/-- NOP keeps the invariant: it acts only with no error latched. -/
theorem State.Inv.setDone {s : State} (h : s.Inv) (hidle : s.running = none) (herr : s.status.err = none) :
    (setDone true s).Inv :=
  { h with
    errNotDone := fun hne => absurd herr hne
    runningWell := fun i hi => by cases hidle.symm.trans hi }

/-- INIT gives the invariant: READY only where its checks have passed (R115). -/
theorem State.Inv.init {s : State} (h : s.Inv) (hidle : s.running = none) : (initCheck (initClear s)).Inv := by
  have herror : ∀ e, (Machine.raiseError e (initClear s)).Inv := fun e =>
    { memWf := h.memWf, wbufRising := rfl
      readyFormat := fun hready => by cases hready
      readyEngine := fun hready => by cases hready
      readyGeometry := fun hready => by cases hready
      packed := fun hready => by cases hready
      statsOrdered := fun hstv => by cases hstv
      smoothBound := fun q hq => by cases hq
      errNotDone := fun _ => rfl
      runningWell := fun i hi => by cases hi }
  rcases initCheck_cases (initClear s) with ⟨-, heq⟩ | ⟨-, -, heq⟩ | ⟨-, -, -, heq⟩ | ⟨hfmt, hengine, hgeometry, heq⟩
  · rw [heq]; exact herror _
  · rw [heq]; exact herror _
  · rw [heq]; exact herror _
  · rw [heq]
    exact
      { memWf := h.memWf, wbufRising := rfl
        readyFormat := fun _ => hfmt
        readyEngine := fun _ he => by
          rcases hpar : s.cfg.hasPar with _ | _
          · exact absurd ⟨he, hpar⟩ hengine
          · exact hpar
        readyGeometry := fun _ => hgeometry
        packed := fun _ hwbv => by cases hwbv
        statsOrdered := fun hstv => by cases hstv
        smoothBound := fun q hq => by cases hq
        errNotDone := fun hne => absurd rfl hne
        runningWell := fun i hi => by cases hidle.symm.trans hi }

/-- A command that may be launched starts to run well: all its work-items are to run (R111 step 5). -/
theorem Launchable.runningWell {i : Instr} {s : State} (hl : Launchable i s) : RunningWell i (launch i s) := by
  rw [launch, frameCmd_setup]
  exact
    { frame := hl.frame, ready := hl.ready, noErr := hl.noErr, notDone := rfl
      wbv := fun hneeds => by
        have hne : i ≠ .pack := by rintro rfl; cases hneeds
        simpa [hne] using hl.wbv hneeds
      stv := fun hneeds => by
        have hne : i ≠ .reduce := by rintro rfl; cases hneeds
        simpa [hne] using hl.stv hneeds
      packing := fun hpack => by simp [hpack]
      reducing := fun hreduce => by simp [hreduce]
      mixing := fun hmap2 => by simp [hmap2]
      strides := hl.strides, overlap := hl.overlap, plain := hl.plain
      todoNodup := List.nodup_range
      todoBelow := fun g => List.mem_range.1
      count := by simp [State.n, State.w, State.h]
      order := fun _ => List.range_eq_range'
      accumulated := fun _ hpos => absurd hpos (by simp)
      written := fun _ g hg hnot => absurd (List.mem_range.2 hg) hnot }

/-- The acceptance of a frame command keeps the invariant. -/
theorem State.Inv.launch {s : State} (h : s.Inv) {i : Instr} (hl : Launchable i s) : (launch i s).Inv := by
  have hrun : ∀ j, (Machine.launch i s).running = some j → RunningWell j (Machine.launch i s) := by
    intro j hj
    have hi : (Machine.launch i s).running = some i := by rw [Machine.launch, frameCmd_setup]
    cases hi.symm.trans hj
    exact hl.runningWell
  rw [Machine.launch, frameCmd_setup] at hrun ⊢
  exact
    { h with
      packed := fun hready hwbv => h.packed hready (show i ≠ .pack ∧ s.status.wbv = true by simpa using hwbv).2
      statsOrdered := fun hstv => by
        obtain ⟨hne, hstv⟩ : i ≠ .reduce ∧ s.status.stv = true := by simpa using hstv
        simpa [hne] using h.statsOrdered hstv
      smoothBound := fun q hq => by
        by_cases hmap2 : i = .map2
        · have hstv : s.status.stv = true := hl.stv (by rw [hmap2]; rfl)
          rw [← show _ = q by simpa [hmap2] using hq]
          exact smoothMix_bounds h.smoothBound (mixNew_bounds (h.statsOrdered hstv))
        · exact h.smoothBound q (by simpa [hmap2] using hq)
      errNotDone := fun _ => rfl
      runningWell := hrun }

/-- The issue of a command keeps the invariant. -/
theorem IssueEffect.inv {w : Word} {s t : State} (he : IssueEffect w s t) (hidle : s.running = none) (h : s.Inv) :
    t.Inv := by
  cases he with
  | ignored => exact h
  | nop herr => exact h.setDone hidle herr
  | error e => exact h.raiseError e
  | init => exact h.init hidle
  | reset => exact resetState_inv h.memWf
  | accepted i hw hl => exact h.launch hl

/-! ### One turn of the engine -/

/-- The fault path keeps the invariant: PACK loses WBV with the pixels (R113, R193). -/
theorem State.Inv.faultPath {s : State} (h : s.Inv) (i : Instr) : (faultPath i (frameCmd i).onFault s).Inv := by
  rw [Machine.faultPath, frameCmd_onFault]
  exact
    { h with
      memWf := scrambleFootprint_memWf i h.memWf
      wbufRising := by
        by_cases hpack : i = .pack
        · simp [hpack, sparseRising]
        · simpa [hpack] using h.wbufRising
      packed := fun hready hwbv g hg => by
        obtain ⟨hpack, hwbv⟩ : i ≠ .pack ∧ s.status.wbv = true := by simpa using hwbv
        simpa [hpack] using h.packed hready hwbv g hg
      statsOrdered := fun hstv => by
        obtain ⟨-, hstv⟩ : i ≠ .reduce ∧ s.status.stv = true := by simpa using hstv
        exact h.statsOrdered hstv
      errNotDone := fun _ => rfl
      runningWell := fun j hj => by cases hj }

section
variable {s : State} (h : s.Inv) {i : Instr} (hrun : s.running = some i)
include h hrun

/-- When its work-items have run, what a command claims by its final action is so: all pixels are packed, and at least
one sample has been taken in, since a checked geometry has a pixel (R113, R130, R131). -/
theorem State.Inv.complete (htodo : s.todo = []) : (complete ((frameCmd i).finish s)).Inv := by
  have hwell := h.runningWell i hrun
  have hpos : 0 < s.gid.toNat := by
    obtain ⟨hw, hh, -⟩ := (geometryOk_iff s).1 (h.readyGeometry hwell.ready)
    have hn : 0 < s.n := Nat.mul_pos hw hh
    have hcount := hwell.count
    simp only [htodo, List.length_nil] at hcount
    omega
  rw [frameCmd_finish]
  exact
    { h with
      packed := fun hready hwbv g hg => by
        by_cases hpack : i = .pack
        · exact hwell.written hpack g hg (by simp [htodo])
        · exact h.packed hready (by simpa [hpack] using hwbv) g hg
      statsOrdered := fun hstv => by
        by_cases hreduce : i = .reduce
        · exact hwell.accumulated hreduce hpos
        · have hstv' : i ≠ .map2 ∧ s.status.stv = true := by simpa [hreduce] using hstv
          exact h.statsOrdered hstv'.2
      errNotDone := fun hne => absurd hwell.noErr hne
      runningWell := fun j hj => by cases hj }

variable {g : Nat} {t : State} (hg : nextGid i s = some g)
include hg

/-- GID counts the work-item just completed, without overflow (R35). -/
theorem gid_succ_of_next : (s.gid + 1).toNat = s.gid.toNat + 1 := by
  have hpos := List.length_pos_of_mem (nextGid_mem hg)
  have hcount := (h.runningWell i hrun).count
  have hn := s.n_lt
  bv_omega

/-- In order, the work-item just completed was GID's, and what is left are those after it (R112, R35). -/
theorem todo_erase_in_order (horder : inOrder i s = true) :
    s.todo.erase g = List.range' (s.gid.toNat + 1) (s.n - (s.gid.toNat + 1)) := by
  have hpos := List.length_pos_of_mem (nextGid_mem hg)
  have hcount := (h.runningWell i hrun).count
  have htodo := (h.runningWell i hrun).order horder
  rw [nextGid, if_pos horder] at hg
  have hlen : s.n - s.gid.toNat = (s.n - (s.gid.toNat + 1)) + 1 := by omega
  rw [htodo, hlen, List.range'_succ] at hg ⊢
  cases hg
  exact List.erase_cons_head ..

/-- While a work-item completes, the running command goes on running well. -/
theorem ItemEffect.runningWell (he : ItemEffect i g s t) : RunningWell i (itemDone g t) := by
  have hwell := h.runningWell i hrun
  have hmem := nextGid_mem hg
  have hsucc := gid_succ_of_next h hrun hg
  have hlen := List.length_erase_of_mem hmem
  have hpos := List.length_pos_of_mem hmem
  rw [he.itemDone_eq]
  exact
    { hwell with
      todoNodup := hwell.todoNodup.erase g
      todoBelow := fun a ha => hwell.todoBelow a (List.mem_of_mem_erase ha)
      count := by
        show (s.gid + 1).toNat + (s.todo.erase g).length = s.n
        have := hwell.count
        omega
      order := fun horder => by
        show s.todo.erase g = List.range' (s.gid + 1).toNat (s.n - (s.gid + 1).toNat)
        rw [hsucc]
        exact todo_erase_in_order h hrun hg horder
      accumulated := fun hreduce _ => he.statsOrdered hreduce
      written := fun hpack a ha hnot => by
        by_cases hag : a = g
        · rw [hag]; exact he.pixelWritten hpack
        · exact he.pixelsKept a (hwell.written hpack a ha fun htodo => hnot ((List.mem_erase_of_ne hag).2 htodo)) }

/-- A completed work-item keeps the invariant. -/
theorem ItemEffect.inv (he : ItemEffect i g s t) : (itemDone g t).Inv := by
  have hwell := h.runningWell i hrun
  have hrunning := he.runningWell h hrun hg
  rw [he.itemDone_eq] at hrunning ⊢
  exact
    { h with
      memWf := he.memWf h.memWf
      wbufRising := he.wbufRising h.wbufRising
      packed := fun hready hwbv a ha => he.pixelsKept a (h.packed hready hwbv a ha)
      statsOrdered := fun hstv => by
        have hreduce : i ≠ .reduce := fun hi => by cases (hwell.reducing hi).symm.trans hstv
        obtain ⟨hmin, hmax⟩ := he.statsKept hreduce
        simpa only [hmin, hmax] using h.statsOrdered hstv
      runningWell := fun j hj => by cases hrun.symm.trans hj; exact hrunning }

end

/-- A turn of the engine on the running command keeps the invariant. -/
theorem State.Inv.engineTurn {s : State} (h : s.Inv) {i : Instr} (hrun : s.running = some i) :
    (engineTurn i (frameCmd i) s).Inv := by
  rcases engineTurn_cases i (frameCmd i) s with ⟨htodo, heq⟩ | ⟨g, t, hg, hbody, heq⟩ | ⟨g, hg, -, heq⟩
  · rw [heq]; exact h.complete hrun htodo
  · rw [heq]; exact (frameCmd_body_effect hbody).inv h hrun hg
  · rw [heq]; exact h.faultPath i

/-! ### One step -/

/-- Settles O32, effect by effect of `step_effect`. -/
theorem stepKeepsTheInvariant : Obligations.StepKeepsTheInvariant := by
  intro s t hs hstep
  obtain ⟨u, hu, heffect⟩ := step_effect hstep
  have h : u.Inv := inv_of_stripped hu hs
  cases heffect with
  | quiet ht => exact inv_of_stripped ht h
  | memWrite a v => exact h.memWrite a v
  | hardReset => exact h.hardReset
  | statusWrite w => exact h.writeStatus w
  | regWrite r w hm hat hidle hstatus => exact h.writeReg hstatus hidle w
  | issue hm hidle hi => exact hi.inv hidle h
  | turn i hm hrun => exact h.engineTurn hrun

end Sys2Proof.Machine
end

section
/-! PROOFS. The family of `20_memory.md`: a plane addresses each of its positions once (R62, R65, R69, R73), and a
running command changes no byte outside its write footprint (R68, R72, R113). -/

namespace Sys2Proof.Machine

/-! ### The positions of a plane and their addresses -/

/-- Within the address space, reduction modulo its size tells byte offsets from a base apart (R69). -/
theorem offset_eq_of_mod_eq {base m n : Nat} (hm : m < 2 ^ 32) (hn : n < 2 ^ 32)
    (h : (base + m) % 2 ^ 32 = (base + n) % 2 ^ 32) : m = n :=
  Nat.ModEq.eq_of_lt_of_lt (Nat.ModEq.add_left_cancel' base h) hm hn

/-- A row no longer than the stride: the offset of a byte determines its row and its column (R62). -/
theorem position_eq_of_offset_eq {stride r c r' c' : Nat} (hc : c < stride) (hc' : c' < stride)
    (h : r * stride + c = r' * stride + c') : r = r' ∧ c = c' := by
  have hrow : ∀ a {b}, b < stride → (a * stride + b) / stride = a := fun a b hb => by
    rw [Nat.mul_comm, Nat.mul_add_div (Nat.zero_lt_of_lt hb), Nat.div_eq_of_lt hb, Nat.add_zero]
  obtain rfl : r = r' := by rw [← hrow r hc, h, hrow r' hc']
  exact ⟨rfl, Nat.add_left_cancel h⟩

/-- The offset of a byte of the plane is below the span from its first to its last byte. -/
theorem offset_lt_span {stride rows cols r c : Nat} (hr : r < rows) (hc : c < cols) :
    r * stride + c < (rows - 1) * stride + cols :=
  Nat.add_lt_add_of_le_of_lt (Nat.mul_le_mul_right stride (Nat.le_sub_one_of_lt hr)) hc

/-- In a plane whose rows do not overlap and whose span fits in the address space, an address determines its position
(R62, R69). -/
theorem position_eq_of_planeAddr_eq {p : PlaneRegs} {rows cols r c r' c' : Nat} (hrow : cols ≤ p.stride.toNat)
    (hspan : (rows - 1) * p.stride.toNat + cols ≤ 2 ^ 32) (hr : r < rows) (hc : c < cols) (hr' : r' < rows)
    (hc' : c' < cols) (h : planeAddr p r c = planeAddr p r' c') : r = r' ∧ c = c' := by
  rw [planeAddr, planeAddr, Nat.add_assoc, Nat.add_assoc] at h
  have hoffset :=
    offset_eq_of_mod_eq ((offset_lt_span hr hc).trans_le hspan) ((offset_lt_span hr' hc').trans_le hspan) h
  exact position_eq_of_offset_eq (hc.trans_le hrow) (hc'.trans_le hrow) hoffset

/-- The region of a plane is the list of the addresses of its positions. -/
theorem planeRegion_eq_map_product (p : PlaneRegs) (rows cols : Nat) :
    planeRegion p rows cols = (List.range rows ×ˢ List.range cols).map fun x => planeAddr p x.1 x.2 := by
  simp [planeRegion, SProd.sprod, List.product, List.map_flatMap, Function.comp_def]

/-- A plane whose rows do not overlap and whose span fits in the address space lists no address twice. -/
theorem planeRegion_nodup {p : PlaneRegs} {rows cols : Nat} (hrow : cols ≤ p.stride.toNat)
    (hspan : (rows - 1) * p.stride.toNat + cols ≤ 2 ^ 32) : (planeRegion p rows cols).Nodup := by
  rw [planeRegion_eq_map_product]
  refine (List.nodup_range.product List.nodup_range).map_on ?_
  rintro ⟨r, c⟩ hx ⟨r', c'⟩ hy haddr
  simp only [List.mem_product, List.mem_range] at hx hy
  obtain ⟨hr, hc⟩ := hx
  obtain ⟨hr', hc'⟩ := hy
  exact Prod.ext_iff.2 (position_eq_of_planeAddr_eq hrow hspan hr hc hr' hc' haddr)

/-- The bytes of a row of pixels, pixel by pixel, are the bytes of the row in order. -/
theorem flatMap_range_four {α : Type} (f : Nat → α) (cols : Nat) :
    ((List.range cols).flatMap fun c => (List.range 4).map fun k => f (4 * c + k)) =
      (List.range (4 * cols)).map f := by
  induction cols with
  | zero => rfl
  | succ cols ih =>
    rw [List.range_succ (n := cols), List.flatMap_append, ih, Nat.mul_succ, List.range_add, List.map_append,
      List.map_map, List.flatMap_singleton]
    rfl

/-- An interleaved frame is the plane of its bytes, four to a pixel (R65, R72). -/
theorem pixelRegion_eq_planeRegion (p : PlaneRegs) (rows cols : Nat) :
    pixelRegion p rows cols = planeRegion p rows (4 * cols) := by
  have hbyte : ∀ r c k, pixelAddr p r c k = planeAddr p r (4 * c + k) := fun r c k => by
    rw [pixelAddr, planeAddr, Nat.add_assoc _ (4 * c) k]
  simp only [pixelRegion, planeRegion, hbyte, flatMap_range_four]

/-- Settles O49: the offsets of distinct positions are distinct and lie in one turn of the address space; an interleaved
frame is a plane of four times as many bytes to a row. -/
theorem planeThatDoesNotWrapIsInjective : Obligations.PlaneThatDoesNotWrapIsInjective := fun p rows cols =>
  ⟨planeRegion_nodup, fun hrow hspan => by
    rw [pixelRegion_eq_planeRegion]
    exact planeRegion_nodup hrow hspan⟩

/-! ### A completed work-item writes inside its command's footprint -/

/-- A work-item's pixel lies in the frame, and its block in the chroma planes (R42, R112). -/
theorem workItem_in_frame {w h g : Nat} (hg : g < w * h) :
    (workItem w g).row < h ∧ (workItem w g).col < w ∧
      (workItem w g).crow < ceil2 h ∧ (workItem w g).ccol < ceil2 w := by
  have hw : 0 < w := Nat.pos_of_mul_pos_right (Nat.zero_lt_of_lt hg)
  have hrow : (workItem w g).row < h := Nat.div_lt_of_lt_mul hg
  have hcol : (workItem w g).col < w := by
    show g - w * (g / w) < w
    rw [← Nat.mod_eq_sub]
    exact Nat.mod_lt g hw
  have hhalf : ∀ {a b : Nat}, a < b → a / 2 < ceil2 b := fun hab => by unfold ceil2; omega
  exact ⟨hrow, hcol, hhalf hrow, hhalf hcol⟩

section
variable {s t : State} {g a : Nat} (hg : g < s.n)
include hg

/-- The writes of a work-item to the destination planes lie in these planes (R132, R133, R180). -/
theorem writePlanes_read_outside {y b c : Byte} (h : writePlanes (workItem s.w g) y b c s = some t)
    (ha : a ∉ (dstPlanes s).flatten) : t.mem.read a = s.mem.read a := by
  obtain ⟨hrow, hcol, hcrow, hccol⟩ := workItem_in_frame hg
  have hout : ∀ region ∈ dstPlanes s, ∀ d ∈ region, d ≠ a := fun region hregion d hd hda =>
    ha (List.mem_flatten.2 ⟨region, hregion, hda ▸ hd⟩)
  have hY := hout _ (.head _) _ (mem_planeRegion.2 ⟨_, hrow, _, hcol, rfl⟩)
  have hA := hout _ (.tail _ (.head _)) _ (mem_planeRegion.2 ⟨_, hcrow, _, hccol, rfl⟩)
  have hB := hout _ (.tail _ (.tail _ (.head _))) _ (mem_planeRegion.2 ⟨_, hcrow, _, hccol, rfl⟩)
  rw [(writePlanes_eq_some h).2]
  split
  · rw [Memory.read_write_other _ _ hB, Memory.read_write_other _ _ hA, Memory.read_write_other _ _ hY]
  · rw [Memory.read_write_other _ _ hY]

/-- The writes of a work-item of EMIT lie in the interleaved frame (R134). -/
theorem emitItem_read_outside (h : emitItem (workItem s.w g) s = some t)
    (ha : a ∉ pixelRegion s.regs.dstI s.h s.w) : t.mem.read a = s.mem.read a := by
  obtain ⟨hrow, hcol, -⟩ := workItem_in_frame hg
  have hout : ∀ k < 4, pixelAddr s.regs.dstI (workItem s.w g).row (workItem s.w g).col k ≠ a := fun k hk hka =>
    ha (mem_pixelRegion.2 ⟨_, hrow, _, hcol, k, hk, hka⟩)
  rw [(emitItem_eq_some h).2, Memory.read_write_other _ _ (hout 3 (by decide)),
    Memory.read_write_other _ _ (hout 2 (by decide)), Memory.read_write_other _ _ (hout 1 (by decide)),
    Memory.read_write_other _ _ (hout 0 (by decide))]

/-- A completed work-item leaves every byte outside its command's write footprint alone (R72). -/
theorem frameCmd_body_read_outside {i : Instr} (h : (frameCmd i).body (workItem s.w g) s = some t)
    (ha : a ∉ writeFootprint i s) : t.mem.read a = s.mem.read a := by
  cases i
  case nop | init | reset => cases h
  case reduce => rw [reduceItem_eq_some h, accumulate_mem]
  case pack => rw [packItem_eq_some h, wbufWrite_mem]
  case map1 | map2 | map3 => cases h; rfl
  case unpackp | unpackn => exact writePlanes_read_outside hg h ha
  case emit => exact emitItem_read_outside hg h (by simpa [writeFootprint, writeRegions] using ha)
  case kern3 => exact writePlanes_read_outside hg (kern3Item_eq_some h) ha

end

/-! ### A turn of the engine, and a step -/

/-- The fault path leaves every byte outside the write footprint alone (R113). -/
theorem faultPath_read_outside {i : Instr} {s : State} {a : Nat} (ha : a ∉ writeFootprint i s) :
    (faultPath i (frameCmd i).onFault s).mem.read a = s.mem.read a := by
  rw [faultPath, raiseError_mem, frameCmd_onFault]
  exact scrambleMem_read_other s.freeCtr (writeFootprint i s) s.mem ha

/-- A turn of the engine leaves every byte outside the write footprint alone, whether it completes a work-item, takes
the fault path or ends the command (R72, R112, R113). -/
theorem engineTurn_read_outside {i : Instr} {s : State} {a : Nat} (htodo : ∀ g ∈ s.todo, g < s.n)
    (ha : a ∉ writeFootprint i s) : (engineTurn i (frameCmd i) s).mem.read a = s.mem.read a := by
  rcases engineTurn_cases i (frameCmd i) s with ⟨-, h⟩ | ⟨g, t, hg, hbody, h⟩ | ⟨g, -, -, h⟩
  · rw [h, complete_mem, frameCmd_finish]
  · rw [h, itemDone_mem]
    exact frameCmd_body_read_outside (htodo g (nextGid_mem hg)) hbody ha
  · rw [h, faultPath_read_outside ha]

/-- With the engine's move next, a step is a turn of the engine on the running command (R112, R220). -/
theorem step_engineTurn {s t : State} {i : Instr} (hrun : s.running = some i) (hframe : isFrame i = true)
    (hmoves : s.agenda = [] ∨ ∃ k rest, s.agenda = .engine k :: rest) (hstep : step s = .next t) :
    ∃ k rest, t = engineTurn i (frameCmd i) { s with agenda := rest, pick := k } := by
  obtain ⟨hturn, hempty⟩ := (stepGivesTheEngineItsTurns s).1 i hrun
  rcases hmoves with hnil | ⟨k, rest, hcons⟩
  · rw [hempty hnil, exec_running (s := { s with pick := 0 }) hrun, if_pos hframe] at hstep
    cases hstep
    exact ⟨0, s.agenda, rfl⟩
  · rw [hturn k rest hcons, exec_running (s := { s with agenda := rest, pick := k }) hrun, if_pos hframe] at hstep
    cases hstep
    exact ⟨k, rest, rfl⟩

/-- Settles O34: the step is a turn of the engine, and by the invariant its work-item lies in the frame. -/
theorem commandsWriteOnlyTheirFootprint : Obligations.CommandsWriteOnlyTheirFootprint := by
  intro s t i hs hrun hmoves hstep a ha
  have hwell := hs.runningWell i hrun
  obtain ⟨k, rest, rfl⟩ := step_engineTurn hrun hwell.frame hmoves hstep
  exact engineTurn_read_outside (s := { s with agenda := rest, pick := k }) hwell.todoBelow ha

end Sys2Proof.Machine
end

section
/-! PROOFS. The family of `30_encoding.md`: the command words (R91, R92, R93), and what a register write stores and
leaves unchanged (R22, R36, R38, R96). -/

namespace Sys2Proof.Machine

/-! ### The opcode map -/

/-- The decoder reads back every command's word (R92). -/
@[simp] theorem decode_encode (i : Instr) : decode (encode i) = .ok i := by
  cases i <;> rfl

/-- Settles O3, by `decode_encode`. -/
theorem decodeOfEncodeIsTheCommand : Obligations.DecodeOfEncodeIsTheCommand := fun i _ => decode_encode i

/-- Settles O2: the legal rows are `decode_encode`, and the three illegal words evaluate to their refusal. -/
theorem opcodeMapIsDecoded : Obligations.OpcodeMapIsDecoded :=
  ⟨decode_encode .nop, decode_encode .init, decode_encode .reduce, decode_encode .pack, decode_encode .map1,
    decode_encode .map2, decode_encode .map3, decode_encode .unpackp, decode_encode .unpackn, decode_encode .emit,
    decode_encode .kern3, decode_encode .reset, rfl, rfl, rfl⟩

/-- The opcode of a command is its whole word, since its bits 31:8 are zero (R91). -/
theorem decodeOpcode_eq_ok_iff {n : Nat} {i : Instr} : decodeOpcode n = .ok i ↔ n = (encode i).toNat := by
  constructor
  · intro h
    unfold decodeOpcode at h
    split at h <;> cases h <;> rfl
  · rintro rfl
    cases i <;> rfl

/-- A word decodes just when its field RSV is zero and the opcode map reads its field OPC (R91). -/
theorem decode_eq_ok_iff_fields {w : Word} {i : Instr} :
    decode w = .ok i ↔ fieldRsv w = 0 ∧ decodeOpcode (fieldOpc w) = .ok i := by
  unfold decode
  split
  · next h => simp [h]
  · next h => simp [h]

/-- Each command matches its one word and no other (R91). -/
theorem decode_eq_ok_iff {w : Word} {i : Instr} : decode w = .ok i ↔ w = encode i := by
  constructor
  · intro h
    obtain ⟨hrsv, hopc⟩ := decode_eq_ok_iff_fields.1 h
    rw [decodeOpcode_eq_ok_iff] at hopc
    unfold fieldRsv at hrsv
    unfold fieldOpc at hopc
    exact BitVec.eq_of_toNat_eq (by omega)
  · rintro rfl
    exact decode_encode i

/-- A word is legal when some command is decoded from it (R91). -/
theorem legalWord_iff {w : Word} : legalWord w = true ↔ ∃ i, decode w = .ok i := by
  unfold legalWord
  split
  · next i h => simp [h]
  · next e h => simp [h]

/-- The opcodes of the twelve commands (R92). -/
theorem exists_decodeOpcode_iff {n : Nat} :
    (∃ i, decodeOpcode n = .ok i) ↔ n ∈ [0x00, 0x01, 0x02, 0x03, 0x04, 0x05, 0x06, 0x07, 0x08, 0x09, 0x0A, 0x0F] := by
  constructor
  · rintro ⟨i, h⟩
    rw [decodeOpcode_eq_ok_iff.1 h]
    cases i <;> decide
  · intro h
    simp only [List.mem_cons, List.not_mem_nil, or_false] at h
    rcases h with rfl | rfl | rfl | rfl | rfl | rfl | rfl | rfl | rfl | rfl | rfl | rfl <;> exact ⟨_, rfl⟩

/-- The field RSV is bits 31:8 (R91). -/
theorem extractLsb'_rsv_eq_zero_iff {w : Word} : w.extractLsb' 8 24 = 0#24 ↔ fieldRsv w = 0 := by
  rw [← BitVec.toNat_inj, BitVec.extractLsb'_toNat, Nat.shiftRight_eq_div_pow]
  have hlt : w.toNat / 2 ^ 8 < 2 ^ 24 := by omega
  rw [Nat.mod_eq_of_lt hlt]
  rfl

/-- The field OPC is bits 7:0 (R91). -/
theorem extractLsb'_opc_toNat (w : Word) : (w.extractLsb' 0 8).toNat = fieldOpc w := by
  rw [BitVec.extractLsb'_toNat, Nat.shiftRight_zero]
  rfl

/-- Settles O1, by the fields of the word and the opcode map. -/
theorem legalWordsAreExactlyTheTwelve : Obligations.LegalWordsAreExactlyTheTwelve := by
  intro w
  refine ⟨?_, fun i => decode_eq_ok_iff⟩
  calc legalWord w = true
    _ ↔ ∃ i, decode w = .ok i := legalWord_iff
    _ ↔ fieldRsv w = 0 ∧ ∃ i, decodeOpcode (fieldOpc w) = .ok i := by
      simp only [decode_eq_ok_iff_fields, exists_and_left]
    _ ↔ _ := by rw [exists_decodeOpcode_iff, extractLsb'_rsv_eq_zero_iff, extractLsb'_opc_toNat]

/-! ### What a register write stores -/

/-- A field of the `n` low bits, read back zero-extended, is the word under the field's mask (R96). -/
theorem setWidth_setWidth_eq_and (w : Word) {n : Nat} (hn : n ≤ 32) :
    (w.setWidth n).setWidth 32 = w &&& BitVec.ofNat 32 (2 ^ n - 1) := by
  have hmask : 2 ^ n - 1 < 2 ^ 32 := by
    have := Nat.pow_le_pow_right (n := 2) (by decide) hn
    omega
  apply BitVec.eq_of_toNat_eq
  rw [BitVec.toNat_setWidth_of_le hn, BitVec.toNat_setWidth, BitVec.toNat_and, BitVec.toNat_ofNat,
    Nat.mod_eq_of_lt hmask, Nat.and_two_pow_sub_one_eq_mod]

/-- Two flags stored from bits 0 and 1 and read back are the word under the mask 3 (IEN and MODE, R27, R29, R96). -/
theorem twoFlags_eq_and (w : Word) :
    0#30 ++ BitVec.ofBool (w.getLsbD 1) ++ BitVec.ofBool (w.getLsbD 0) = w &&& 3#32 := by
  apply BitVec.eq_of_toNat_eq
  have hmask : (w &&& 3#32).toNat = w.toNat % 4 := Nat.and_two_pow_sub_one_eq_mod w.toNat 2
  rw [toNat_twoFlags, hmask, BitVec.getLsbD, BitVec.getLsbD, Nat.toNat_testBit, Nat.toNat_testBit]
  omega

/-- What a register other than CMD and STATUS reads after `w` has been written to it: the bits of its defined fields
(R96); the read-only registers keep their word. -/
theorem readReg_storeReg_same {r : RegName} (hcmd : r ≠ .cmd) (hstatus : r ≠ .status) (w : Word) (s : State) :
    readReg r { s with regs := storeReg r w s.regs } =
      if r = .width ∨ r = .height then w &&& 0xFFFF#32
      else if r = .format then w &&& 0xFF#32
      else if r = .mode ∨ r = .ien then w &&& 3#32
      else if r = .id ∨ r = .statMin ∨ r = .statMax ∨ r = .gid then readReg r s
      else w := by
  cases r
  case cmd => exact absurd rfl hcmd
  case status => exact absurd rfl hstatus
  case width | height => exact setWidth_setWidth_eq_and w (n := 16) (by decide)
  case format => exact setWidth_setWidth_eq_and w (n := 8) (by decide)
  case mode | ien => exact twoFlags_eq_and w
  all_goals rfl

/-- A write to one register changes what no other register reads (R96). -/
theorem readReg_storeReg_of_ne {r r' : RegName} (hne : r' ≠ r) (hstatus : r' ≠ .status) (w : Word) (s : State) :
    readReg r' { s with regs := storeReg r w s.regs } = readReg r' s := by
  cases r'
  case status => exact absurd rfl hstatus
  all_goals cases r
  any_goals exact absurd rfl hne
  all_goals rfl

/-- STATUS apart, no register reads the flags or the coming moves. -/
theorem readReg_ignores_flags_and_moves {r : RegName} (hstatus : r ≠ .status) (s : State) (moves : List Event)
    (x : Status) :
    readReg r { s with agenda := moves, status := x } = readReg r s := by
  cases r
  case status => exact absurd rfl hstatus
  all_goals rfl

/-- The registers whose write clears READY (R38). -/
theorem clearsReady_iff {r : RegName} :
    clearsReady r = true ↔ r = .format ∨ r = .mode ∨ r = .width ∨ r = .height := by
  simp [clearsReady, or_assoc]

/-- Each register's offset exists at the port (R21, R22). -/
theorem regAt_aligned {n : Nat} {r : RegName} (h : regAt n = some r) : n % 4 = 0 := by
  rw [regAt_eq_some_iff.1 h]
  cases r <;> rfl

/-- Settles O50: the write is `writeReg`, and what a register reads after it is said by the two rules for `storeReg`. -/
theorem registerWritesStoreTheirFields : Obligations.RegisterWritesStoreTheirFields := by
  intro s off w r rest hagenda hidle hat hcmd hstatus
  have hstep : step s = .next (writeReg r w { s with agenda := rest }) := by
    rw [step_regWrite hagenda (regAt_aligned hat)]
    exact portWrite_register hat (.inl hidle) hcmd
  have hread : ∀ r' : RegName, r' ≠ .status → readReg r' (writeReg r w { s with agenda := rest }) =
      readReg r' { s with regs := storeReg r w s.regs } := by
    intro r' hr'
    rw [writeReg_eq hstatus]
    exact readReg_ignores_flags_and_moves hr' { s with regs := storeReg r w s.regs } rest _
  refine ⟨_, hstep, ?_, fun r' hne hr' => ?_, ?_⟩
  · rw [hread r hstatus, readReg_storeReg_same hcmd hstatus]
  · rw [hread r' hr', readReg_storeReg_of_ne hne hr']
  · simp only [writeReg_eq hstatus, clearsReady_iff]

end Sys2Proof.Machine
end

section
/-! PROOFS. The family of `40_control.md`: the coordinates of a work-item (R112), command issue (R110), the commands
that run no work-item (R114 to R116), the acceptance of a frame command (R111), and the two ends of one (R113, R193). -/

namespace Sys2Proof.Machine

/-! ### The coordinates of a work-item -/

/-- The flat index of a work-item is that of its row and column (R112). -/
theorem workItem_index (w g : Nat) : g = (workItem w g).row * w + (workItem w g).col :=
  calc g = w * (g / w) + (g - w * (g / w)) := (Nat.add_sub_of_le (Nat.mul_div_le g w)).symm
    _ = g / w * w + (g - w * (g / w)) := by rw [Nat.mul_comm w (g / w)]

/-- A representative stands at even coordinates (R112, R132). -/
theorem workItem_rep_iff (w g : Nat) :
    (workItem w g).rep = true ↔ (workItem w g).row % 2 = 0 ∧ (workItem w g).col % 2 = 0 := by
  simp [workItem]

/-- Settles O47: the bounds are `workItem_in_frame`. -/
theorem workItemCoordinatesLieInTheFrame : Obligations.WorkItemCoordinatesLieInTheFrame := by
  intro w h g hg
  obtain ⟨hrow, hcol, hcrow, hccol⟩ := workItem_in_frame hg
  exact ⟨rfl, rfl, rfl, hrow, hcol, workItem_index w g, rfl, rfl, workItem_rep_iff w g, hcrow, hccol⟩

/-! ### NOP -/

/-- NOP issued while idle with no error latched sets DONE (R114). -/
theorem exec_nop_idle {s : State} (hidle : s.running = none) (herr : s.status.err = none) :
    exec .nop s = .next (setDone true s) := by
  rw [exec_nop, controlCommand_idle hidle]
  simp [herr]

/-- NOP is ignored while an error is latched (R110 step 2, R114). -/
theorem exec_nop_latched {s : State} (hidle : s.running = none) (herr : s.status.err ≠ none) :
    exec .nop s = .next s := by
  rw [exec_nop, controlCommand_idle hidle]
  simp [Option.isSome_iff_ne_none, herr]

/-- Settles O7: NOP with no error latched, with one, and from the reset state. -/
theorem nopOnlySetsDone : Obligations.NopOnlySetsDone :=
  ⟨fun _ hidle => ⟨exec_nop_idle hidle, exec_nop_latched hidle⟩, rfl, setDone true State.reset,
    exec_nop_idle rfl rfl, rfl⟩

/-! ### Command issue -/

/-- While an error is latched only INIT and RESET are taken (R110 step 2). -/
theorem exec_latched {i : Instr} {s : State} (hidle : s.running = none) (herr : s.status.err ≠ none)
    (hinit : i ≠ .init) (hreset : i ≠ .reset) : exec i s = .next s := by
  by_cases hi : isFrame i = true
  · rw [exec_frame hi, frameCommand_latched hidle (Option.isSome_iff_ne_none.2 herr)]
  · cases i
    case nop => exact exec_nop_latched hidle herr
    case init => exact absurd rfl hinit
    case reset => exact absurd rfl hreset
    all_goals exact absurd rfl hi

/-- An illegal word is ignored while an error is latched (R110 step 2). -/
theorem illegalCommand_latched {s : State} (hidle : s.running = none) (herr : s.status.err ≠ none) :
    illegalCommand s = .next s := by
  rw [illegalCommand, controlCommand_idle hidle]
  simp [Option.isSome_iff_ne_none, herr]

/-- An illegal word raises ILLEGAL_CMD, DONE cleared (R110 step 3, R194). -/
theorem illegalCommand_idle {s : State} (hidle : s.running = none) (herr : s.status.err = none) :
    illegalCommand s = .next { s with status := { s.status with done := false, err := some .illegalCmd } } := by
  rw [illegalCommand, controlCommand_idle hidle]
  simp [raiseError, onStatus, hidle, herr]

/-- A word that is not legal goes to `illegalCommand` (R93). -/
theorem issue_illegal {w : Word} {s : State} (hw : legalWord w = false) : issue w s = illegalCommand s := by
  unfold issue
  split
  · next i hdecode => cases hw.symm.trans (legalWord_iff.2 ⟨i, hdecode⟩)
  · rfl

/-- While an error is latched every word but those of INIT and RESET is ignored, legal or not (R110 step 2). -/
theorem issue_latched {w : Word} {s : State} (hidle : s.running = none) (herr : s.status.err ≠ none)
    (hinit : w ≠ encode .init) (hreset : w ≠ encode .reset) : issue w s = .next s := by
  unfold issue
  split
  · next i hdecode =>
    rw [decode_eq_ok_iff] at hdecode
    exact exec_latched hidle herr (fun hi => hinit (hi ▸ hdecode)) (fun hi => hreset (hi ▸ hdecode))
  · exact illegalCommand_latched hidle herr

/-- Settles O6: a step at a write to CMD is dropped during BUSY and is the word's issue otherwise. -/
theorem commandIssueFollowsItsFourSteps : Obligations.CommandIssueFollowsItsFourSteps := by
  intro s w rest hagenda
  have hstep : step s = portWrite 0x04 w { s with agenda := rest } := step_regWrite hagenda rfl
  have hissue : s.running = none → step s = issue w { s with agenda := rest } := fun hidle =>
    hstep.trans (portWrite_cmd hidle)
  refine ⟨fun hbusy => ?_, fun hidle herr hinit hreset => ?_, fun hidle herr hw => ?_, fun hidle _ i hdecode => ?_⟩
  · have hcmd : ∀ r, regAt 0x04 = some r → writableWhileBusy r = false := by rintro r ⟨⟩; rfl
    exact hstep.trans (portWrite_busy hbusy hcmd)
  · exact (hissue hidle).trans (issue_latched hidle herr hinit hreset)
  · rw [hissue hidle, issue_illegal hw]
    exact illegalCommand_idle hidle herr
  · exact stepRunsTheIssuedCommand s w i rest hagenda hidle hdecode

/-! ### INIT -/

/-- The geometry INIT reports, written out (R115, R196). -/
theorem geometryOk_eq_false_iff (s : State) :
    geometryOk s = false ↔ s.regs.width.toNat = 0 ∨ s.regs.height.toNat = 0 ∨
      s.cfg.wbufPixels < s.regs.width.toNat * s.regs.height.toNat ∨
      (s.regs.evenChk = true ∧ (s.regs.width.toNat % 2 = 1 ∨ s.regs.height.toNat % 2 = 1)) := by
  rw [← Bool.not_eq_true, geometryOk_iff]
  unfold State.n State.w State.h
  rcases s.regs.evenChk with _ | _
  · simp only [Bool.false_eq_true, false_implies, false_and, and_true, or_false]; omega
  · simp only [true_and, forall_const]; omega

/-- On an idle engine INIT's checks write STATUS and nothing else (R115). -/
theorem initCheck_frame {s : State} (hidle : s.running = none) :
    initCheck s = { s with status := (initCheck s).status } := by
  have hraise : ∀ e, raiseError e s = { s with status := (raiseError e s).status } := fun e => by
    rw [raiseError, hidle]
  rcases initCheck_cases s with ⟨-, heq⟩ | ⟨-, -, heq⟩ | ⟨-, -, -, heq⟩ | ⟨-, -, -, heq⟩
  · rw [heq]; exact hraise _
  · rw [heq]; exact hraise _
  · rw [heq]; exact hraise _
  · rw [heq]; rfl

/-- Settles O8: the four outcomes of `initCheck_cases` are the four branches. -/
theorem initConstructsOrReports : Obligations.InitConstructsOrReports := by
  intro s hidle
  have hexec : exec .init s = .next (initCheck (initClear s)) := by rw [exec_init, controlCommand_idle hidle]
  rw [initCheck_frame (s := initClear s) hidle] at hexec
  refine ⟨_, hexec, rfl, hidle, rfl, rfl, rfl, rfl, rfl, rfl, rfl, rfl, rfl, rfl, rfl, rfl, ?_⟩
  have hgeometry : geometryOk (initClear s) = geometryOk s := geometryOk_congr rfl rfl rfl rfl
  have hcases := initCheck_cases (initClear s)
  simp only [initClear_regs, initClear_cfg, hgeometry] at hcases
  rcases hcases with ⟨hfmt, heq⟩ | ⟨hfmt, hengine, heq⟩ | ⟨hfmt, hengine, hbad, heq⟩ | ⟨hfmt, hengine, hgood, heq⟩
  · rw [heq, if_pos hfmt]
    rfl
  · rw [heq, if_neg (not_ne_iff.2 hfmt), if_pos hengine]
    rfl
  · rw [heq, if_neg (not_ne_iff.2 hfmt), if_neg hengine, if_pos ((geometryOk_eq_false_iff s).1 hbad)]
    rfl
  · rw [heq, if_neg (not_ne_iff.2 hfmt), if_neg hengine, if_neg (mt (geometryOk_eq_false_iff s).2 (by simp [hgood]))]
    rfl

/-! ### RESET -/

/-- Every register reads its reset value in the reset state, whatever MEM holds (R45). -/
theorem readReg_resetState (r : RegName) (s : State) : readReg r (resetState s) = resetWord r := by
  obtain ⟨-, -, -, -, hregs, -⟩ := resetStateHoldsTheSpecsValues
  calc readReg r (resetState s) = readReg r State.reset := by cases r <;> rfl
    _ = resetWord r := hregs r

/-- Settles O9: RESET never looks at the error. -/
theorem resetCommandRestoresResetValues : Obligations.ResetCommandRestoresResetValues := by
  intro s
  refine ⟨fun hidle => ⟨resetState s, ?_, fun r => readReg_resetState r s, rfl, rfl, rfl, rfl, rfl, rfl, rfl, rfl⟩,
    fun hbusy => ?_⟩
  · rw [exec_reset, controlCommand_idle hidle]
  · obtain ⟨i, hrun⟩ := Option.ne_none_iff_exists'.1 hbusy
    exact controlCommand_busy hrun

/-! ### The acceptance of a frame command -/

/-- A frame command that may be launched passes its prologue and starts (R111). -/
theorem Launchable.exec_eq_launch {i : Instr} {s : State} (hl : Launchable i s) : exec i s = .next (launch i s) := by
  rw [exec_frame hl.frame, frameCommand_idle hl.idle hl.noErr]
  have haccept : prologue i (frameCmd i).setup (setDone false s) =
      acceptFrame i (frameCmd i).setup (setDone false s) := by
    rcases prologue_cases i (frameCmd i).setup (setDone false s) with
      ⟨hready, -⟩ | ⟨-, ⟨hneeds, hwbv⟩ | ⟨hneeds, hstv⟩, -⟩ | ⟨-, -, -, hstrides, -⟩ | ⟨-, -, -, -, heq⟩
    · cases hl.ready.symm.trans hready
    · cases (hl.wbv hneeds).symm.trans hwbv
    · cases (hl.stv hneeds).symm.trans hstv
    · cases hl.strides.symm.trans hstrides
    · exact heq
  rw [haccept]
  rcases acceptFrame_cases i (frameCmd i).setup (setDone false s) with ⟨hoverlap, -⟩ | ⟨hplain, -⟩ | ⟨-, -, heq⟩
  · cases hl.overlap.symm.trans hoverlap
  · cases hl.plain.symm.trans hplain
  · exact heq

/-- Settles O13: each command starts from its `launch`, which is the state written out for it. -/
theorem frameCommandsAreAccepted : Obligations.FrameCommandsAreAccepted := by
  intro s
  refine ⟨fun hl => hl.exec_eq_launch, fun hl => hl.exec_eq_launch, fun hl => hl.exec_eq_launch, fun hl => ?_,
    fun hl => hl.exec_eq_launch, fun hl => hl.exec_eq_launch, fun hl => hl.exec_eq_launch,
    fun hl => hl.exec_eq_launch, fun hl => hl.exec_eq_launch⟩
  have hlaunch : launch .map2 s = { setDone false s with
      running := some .map2, gid := 0, todo := List.range s.n
      smooth := some (smoothMix s.smooth (mixNew s.statMin s.statMax)) } := rfl
  rw [hl.exec_eq_launch, hlaunch]
  rcases s.smooth with _ | p <;> rfl

/-! ### The end of a command without error -/

/-- With no work-item left, a turn is the final action and the epilogue (R113). -/
theorem engineTurn_of_todo_nil {i : Instr} {f : FrameCmd} {s : State} (h : s.todo = []) :
    engineTurn i f s = complete (f.finish s) := by
  rw [engineTurn, nextGid_eq_none.2 h]

/-- Settles O20: with nothing left to run, the turn is the command's final action and the epilogue. -/
theorem engineEndsTheCommandAfterItsItems : Obligations.EngineEndsTheCommandAfterItsItems := by
  intro s i hi hrun htodo
  rw [exec_running hrun, if_pos hi, engineTurn_of_todo_nil htodo, frameCmd_finish]
  rfl

/-! ### The fault path -/

/-- A write fails, or what follows it does. -/
theorem memWrite_bind_eq_none {α : Type} {a : Nat} {v : Byte} {s : State} {k : State → Option α} :
    (memWrite a v s).bind k = none ↔
      memFault s.cfg a .write = true ∨ k { s with mem := s.mem.write a v } = none := by
  unfold memWrite
  cases memFault s.cfg a .write <;> simp

/-- A read fails, or what follows it does. -/
theorem memRead_bind_eq_none {α : Type} {a : Nat} {s : State} {k : Byte → Option α} :
    (memRead s a).bind k = none ↔ memFault s.cfg a .read = true ∨ k (s.mem.read a) = none := by
  unfold memRead
  cases memFault s.cfg a .read <;> simp

/-- A work-item of PACK fails with one of its three reads (R131). -/
theorem packItem_eq_none {x : WorkItem} {s : State} : packItem x s = none ↔ itemFaults .pack x s = true := by
  simp only [itemFaults, itemAccesses, List.any_cons, List.any_nil, Bool.or_eq_true, Bool.false_eq_true, or_false,
    ← memRead_eq_none]
  unfold packItem
  split
  · next hy ha hb => simp [hy, ha, hb]
  · next h =>
    refine iff_of_true rfl (by_contra fun hnot => ?_)
    simp only [not_or, Option.ne_none_iff_exists'] at hnot
    obtain ⟨⟨y, hy⟩, ⟨a, ha⟩, ⟨b, hb⟩⟩ := hnot
    exact h y a b hy ha hb

/-- The writes to the destination planes fail with one of them (R132, R133, R180). -/
theorem writePlanes_eq_none {x : WorkItem} {y a b : Byte} {s : State} :
    writePlanes x y a b s = none ↔ (planeWrites x s).any (fun p => memFault s.cfg p.1 p.2) = true := by
  unfold writePlanes writeChroma planeWrites
  by_cases hrep : x.rep = true
  · simp only [hrep, if_true, memWrite_bind_eq_none, memWrite_eq_none]
    simp
  · simp [memWrite_eq_none, hrep]

/-- A work-item of EMIT fails with one of its four writes (R134). -/
theorem emitItem_eq_none {x : WorkItem} {s : State} : emitItem x s = none ↔ itemFaults .emit x s = true := by
  simp only [emitItem, memWrite_bind_eq_none, memWrite_eq_none]
  simp [itemFaults, itemAccesses, List.range_succ]

/-- The body of a work-item fails just when one of its accesses does (R71, R113). -/
theorem frameCmd_body_eq_none_iff {i : Instr} (hi : isFrame i = true) {x : WorkItem} {s : State} :
    (frameCmd i).body x s = none ↔ itemFaults i x s = true := by
  cases i
  case nop | init | reset => cases hi
  case reduce =>
    show (memRead s _).map _ = none ↔ _
    simp [memRead_eq_none, itemFaults, itemAccesses]
  case pack => exact packItem_eq_none
  case map1 | map2 | map3 => exact ⟨fun h => (by cases h), fun h => (by cases h)⟩
  case unpackp | unpackn => exact writePlanes_eq_none
  case emit => exact emitItem_eq_none
  case kern3 =>
    show (memRead s _).bind _ = none ↔ _
    rw [memRead_bind_eq_none, writePlanes_eq_none]
    simp [itemFaults, itemAccesses]

/-- A turn whose work-item fails is the fault path (R113). -/
theorem engineTurn_of_itemFaults {i : Instr} (hi : isFrame i = true) {s : State} {g : Nat}
    (hg : nextGid i s = some g) (hfault : itemFaults i (workItem s.w g) s = true) :
    engineTurn i (frameCmd i) s = faultPath i (frameCmd i).onFault s := by
  simp only [engineTurn, hg, (frameCmd_body_eq_none_iff hi).2 hfault]

/-- GID after a DISPATCH error lies in [0, N] (R113, U6). -/
theorem freeGid_le (s : State) : (freeGid s).toNat ≤ s.n :=
  calc (freeGid s).toNat = Config.freeCount s.freeCtr % (s.n + 1) % 2 ^ 32 := BitVec.toNat_ofNat _ _
    _ ≤ Config.freeCount s.freeCtr % (s.n + 1) := Nat.mod_le _ _
    _ ≤ s.n := Nat.le_of_lt_succ (Nat.mod_lt _ s.n.succ_pos)

/-- The state the fault path leaves, written out (R113, R193). -/
theorem faultPath_eq {i : Instr} {s : State} (herr : s.status.err = none) :
    faultPath i (frameCmd i).onFault s = { s with
      running := none, todo := [], gid := freeGid s
      mem := (scrambleFootprint i s).mem
      status := { s.status with
        done := false, err := some .dispatch
        wbv := if i = .pack then false else s.status.wbv
        stv := if i = .reduce then false else s.status.stv }
      wbuf := if i = .pack then [] else s.wbuf
      freeCtr := if i = .pack then s.freeCtr + 2 else s.freeCtr + 1 } := by
  rw [faultPath, frameCmd_onFault, raiseError]
  simp only [scrambleFootprint_status, herr, Option.none_or]
  rfl

/-- Settles O21: the turn takes the fault path, whose residue is `faultPath_eq`. -/
theorem failedAccessTakesTheFaultPath : Obligations.FailedAccessTakesTheFaultPath := by
  intro s i g hi hrun herr hg hfault
  have hexec : exec i s = .next (faultPath i (frameCmd i).onFault s) := by
    rw [exec_running hrun, if_pos hi, engineTurn_of_itemFaults hi hg hfault]
  have hmem : ∀ a, a ∉ writeFootprint i s → (scrambleFootprint i s).mem.read a = s.mem.read a := fun a ha =>
    scrambleMem_read_other s.freeCtr (writeFootprint i s) s.mem ha
  rw [faultPath_eq herr] at hexec
  exact ⟨_, hexec, rfl, rfl, rfl, freeGid_le s, rfl, rfl, rfl, rfl, rfl, rfl, rfl, rfl, fun hpack => if_neg hpack, hmem⟩

end Sys2Proof.Machine
end

section
/-! PROOFS. The family of `41_plane_ops.md`, first part: one work-item of a plane operation (R130 to R134, R180), and
the representatives of the chroma samples (R132, R181). -/

namespace Sys2Proof.Machine

/-! ### The pixel at a position, and the representative of a block -/

/-- The work-item of the pixel at row `r` and column `c` (R112). -/
theorem workItem_at {w r c : Nat} (hc : c < w) :
    (workItem w (r * w + c)).row = r ∧ (workItem w (r * w + c)).col = c := by
  have hrow : (r * w + c) / w = r := by
    rw [Nat.mul_comm, Nat.mul_add_div (Nat.zero_lt_of_lt hc), Nat.div_eq_of_lt hc, Nat.add_zero]
  refine ⟨hrow, ?_⟩
  show r * w + c - w * ((r * w + c) / w) = c
  rw [hrow, Nat.mul_comm, Nat.add_sub_cancel_left]

/-- The flat index of a position of the frame is that of one of its work-items. -/
theorem index_lt {w h r c : Nat} (hr : r < h) (hc : c < w) : r * w + c < w * h :=
  calc r * w + c < (r + 1) * w := by rw [Nat.succ_mul]; exact Nat.add_lt_add_left hc _
    _ ≤ w * h := by rw [Nat.mul_comm w h]; exact Nat.mul_le_mul_right w hr

/-- Settles O48: a representative stands at twice the coordinates of its block, and they determine its index. -/
theorem eachChromaSampleHasOneRepresentative : Obligations.EachChromaSampleHasOneRepresentative := by
  intro w h cr cc hcr hcc
  have hrow : 2 * cr < h := by omega
  have hcol : 2 * cc < w := by omega
  refine ⟨hrow, hcol, fun g => ⟨fun ⟨_, hrep, hcrow, hccol⟩ => ?_, ?_⟩⟩
  · obtain ⟨hevenRow, hevenCol⟩ := (workItem_rep_iff w g).1 hrep
    have hr : (workItem w g).row = 2 * cr := by
      have : (workItem w g).row / 2 = cr := hcrow
      omega
    have hc : (workItem w g).col = 2 * cc := by
      have : (workItem w g).col / 2 = cc := hccol
      omega
    rw [← hr, ← hc]
    exact workItem_index w g
  · rintro rfl
    obtain ⟨hr, hc⟩ := workItem_at (r := 2 * cr) hcol
    refine ⟨index_lt hrow hcol, (workItem_rep_iff _ _).2 (by omega), ?_, ?_⟩
    · show (workItem w _).row / 2 = cr
      omega
    · show (workItem w _).col / 2 = cc
      omega

/-! ### The bytes a work-item writes -/

/-- Writes to frame memory, one after the other (R74). -/
def Memory.writeAll (m : Memory) (bytes : List Host.Cell) : Memory :=
  bytes.foldl (fun m p => m.write p.1 p.2) m

@[simp] theorem Memory.writeAll_nil (m : Memory) : m.writeAll [] = m := rfl

@[simp] theorem Memory.writeAll_cons (m : Memory) (p : Host.Cell) (bytes : List Host.Cell) :
    m.writeAll (p :: bytes) = (m.write p.1 p.2).writeAll bytes := rfl

/-- An address holds `v` after writes that put nothing else there, if one of them puts it there or it was there
before. -/
theorem Memory.read_writeAll {m : Memory} {bytes : List Host.Cell} {a : Nat} {v : Byte}
    (hagree : ∀ p ∈ bytes, p.1 = a → p.2 = v) (hv : (∃ p ∈ bytes, p.1 = a) ∨ m.read a = v) :
    (m.writeAll bytes).read a = v := by
  induction bytes generalizing m with
  | nil => simpa using hv
  | cons p bytes ih =>
    rw [writeAll_cons]
    refine ih (fun q hq => hagree q (.tail _ hq)) ?_
    rw [Memory.read_write]
    by_cases hp : p.1 = a
    · exact .inr (by rw [if_pos hp, hagree p (.head _) hp])
    · rw [if_neg hp]
      refine hv.imp_left fun ⟨q, hq, hqa⟩ => ⟨q, ?_, hqa⟩
      exact (List.mem_cons.1 hq).resolve_left fun hqp => hp (hqp ▸ hqa)

/-- Component `k` of a pixel (R39, R65). -/
def pixelByte (p : Pixel) (k : Nat) : Byte :=
  match k with
  | 0 => p.c0
  | 1 => p.c1
  | 2 => p.c2
  | _ => p.c3

/-- The luma and the two chroma bytes of a command that writes the destination planes (R132, R133, R180). -/
def planeTriple (i : Instr) (x : WorkItem) (s : State) : Byte × Byte × Byte :=
  if i = .kern3 then v3 s.cfg (s.mem.read (planeAddr s.regs.srcY x.row x.col))
  else if i = .unpackn then ((wbufRead s x.gid).c0, 128, 128)
  else ((wbufRead s x.gid).c0, (wbufRead s x.gid).c1, (wbufRead s x.gid).c2)

/-- The bytes of the triple `o` at the places of the work-item `x` in the destination planes, chroma for a
representative (R181). -/
def planeBytes (x : WorkItem) (o : Byte × Byte × Byte) (s : State) : List Host.Cell :=
  (planeAddr s.regs.dstY x.row x.col, o.1) ::
    (if x.rep then [(planeAddr s.regs.dstA x.crow x.ccol, o.2.1), (planeAddr s.regs.dstB x.crow x.ccol, o.2.2)] else [])

/-- The bytes a completed work-item writes to frame memory, in their order (R68, R74). -/
def itemBytes (i : Instr) (x : WorkItem) (s : State) : List Host.Cell :=
  match i with
  | .unpackp | .unpackn | .kern3 => planeBytes x (planeTriple i x s) s
  | .emit => (List.range 4).map fun k => (pixelAddr s.regs.dstI x.row x.col k, pixelByte (wbufRead s x.gid) k)
  | .nop | .init | .reset | .reduce | .pack | .map1 | .map2 | .map3 => []

/-- The commands that write frame memory (R72). -/
def writesMemory (i : Instr) : Bool :=
  match i with
  | .unpackp | .unpackn | .kern3 | .emit => true
  | .nop | .init | .reset | .reduce | .pack | .map1 | .map2 | .map3 => false

/-- The writes to the destination planes are those of `planeBytes`. -/
theorem writePlanes_writeAll {x : WorkItem} {o : Byte × Byte × Byte} {s t : State}
    (h : writePlanes x o.1 o.2.1 o.2.2 s = some t) : t = { s with mem := s.mem.writeAll (planeBytes x o s) } := by
  obtain ⟨hframe, hmem⟩ := writePlanes_eq_some h
  rw [hframe, hmem, planeBytes]
  by_cases hrep : x.rep = true
  · simp only [hrep, if_true, Memory.writeAll_cons, Memory.writeAll_nil]
  · simp only [hrep, Memory.writeAll_cons]; rfl

/-- A completed work-item of a command that writes frame memory writes its bytes and changes nothing else. -/
theorem frameCmd_body_writeAll {i : Instr} (hi : writesMemory i = true) {x : WorkItem} {s t : State}
    (h : (frameCmd i).body x s = some t) : t = { s with mem := s.mem.writeAll (itemBytes i x s) } := by
  cases i
  case unpackp | unpackn => exact writePlanes_writeAll h
  case kern3 => exact writePlanes_writeAll (kern3Item_eq_some h)
  case emit =>
    obtain ⟨hframe, hmem⟩ := emitItem_eq_some h
    rw [hframe, hmem]
    rfl
  all_goals cases hi

/-! ### One turn of the engine on a work-item whose accesses succeed -/

/-- A work-item of the running command whose accesses succeed completes in one turn (R112). -/
theorem exec_completes_item {i : Instr} {s : State} {g : Nat} (hi : isFrame i = true) (hrun : s.running = some i)
    (hg : nextGid i s = some g) (hanswers : itemFaults i (workItem s.w g) s = false) :
    ∃ t, (frameCmd i).body (workItem s.w g) s = some t ∧ exec i s = .next (itemDone g t) := by
  have hbody : (frameCmd i).body (workItem s.w g) s ≠ none := by
    rw [Ne, frameCmd_body_eq_none_iff hi, hanswers]
    exact Bool.false_ne_true
  obtain ⟨t, ht⟩ := Option.ne_none_iff_exists'.1 hbody
  refine ⟨t, ht, ?_⟩
  rw [exec_running hrun, if_pos hi]
  simp only [engineTurn, hg, ht]

/-- Settles O15: REDUCE runs in order, so the turn takes the first work-item left. -/
theorem reduceTakesOneSample : Obligations.ReduceTakesOneSample := by
  intro s g rest hrun htodo row a y hanswers
  have hg : nextGid .reduce s = some g := by simp [nextGid, inOrder, htodo]
  have hfaults : itemFaults .reduce (workItem s.w g) s = false := by
    simp only [itemFaults, itemAccesses, List.any_cons, List.any_nil, Bool.or_false]
    exact hanswers
  obtain ⟨t, hbody, hexec⟩ := exec_completes_item rfl hrun hg hfaults
  have herase : s.todo.erase g = rest := by rw [htodo, List.erase_cons_head]
  rw [hexec, reduceItem_eq_some hbody, itemDone, accumulate_todo, herase]
  rfl

/-- Settles O16: the three reads succeed, and the pixel of the work-item is written. -/
theorem packMovesOnePixel : Obligations.PackMovesOnePixel := by
  intro s g hrun hg row col aY aA aB hY hA hB
  have hfaults : itemFaults .pack (workItem s.w g) s = false := by
    simp only [itemFaults, itemAccesses, List.any_cons, List.any_nil, Bool.or_false, Bool.or_eq_false_iff]
    exact ⟨hY, hA, hB⟩
  obtain ⟨t, hbody, hexec⟩ := exec_completes_item rfl hrun hg hfaults
  rw [hexec, packItem_eq_some hbody]
  rfl

/-- What an address holds after a work-item's writes to the destination planes, the latest write counting. -/
theorem read_writeAll_planeBytes (x : WorkItem) (o : Byte × Byte × Byte) (s : State) (q : Nat) :
    (s.mem.writeAll (planeBytes x o s)).read q =
      if x.rep = true ∧ q = planeAddr s.regs.dstB x.crow x.ccol then o.2.2
      else if x.rep = true ∧ q = planeAddr s.regs.dstA x.crow x.ccol then o.2.1
      else if q = planeAddr s.regs.dstY x.row x.col then o.1
      else s.mem.read q := by
  by_cases hrep : x.rep = true <;> simp [planeBytes, hrep, Memory.read_write, eq_comm]

/-- Settles O18: the turn writes the work-item's bytes, and the triple they come from is the command's. -/
theorem planeWritersWriteOnePixel : Obligations.PlaneWritersWriteOnePixel := by
  intro s i g hrun hg hi x hanswers p o y a b
  have hcommands : i = .unpackp ∨ i = .unpackn ∨ i = .kern3 := by simpa using hi
  have hframe : isFrame i = true := by rcases hcommands with rfl | rfl | rfl <;> rfl
  have hwrites : writesMemory i = true := by rcases hcommands with rfl | rfl | rfl <;> rfl
  have hbytes : itemBytes i x s = planeBytes x (y, a, b) s := by rcases hcommands with rfl | rfl | rfl <;> rfl
  obtain ⟨t, hbody, hexec⟩ := exec_completes_item hframe hrun hg hanswers
  rw [frameCmd_body_writeAll hwrites hbody] at hexec
  refine ⟨_, hexec, rfl, fun q => ?_⟩
  rw [itemDone_mem, ← read_writeAll_planeBytes x (y, a, b) s q, ← hbytes]
  rfl

/-- Settles O19: the turn writes the work-item's four bytes, the latest write to an address counting. -/
theorem emitWritesFourBytes : Obligations.EmitWritesFourBytes := by
  intro s g hrun hg x hanswers p
  obtain ⟨t, hbody, hexec⟩ := exec_completes_item rfl hrun hg hanswers
  obtain ⟨hframe, hmem⟩ := emitItem_eq_some hbody
  refine ⟨_, hexec, congrArg (itemDone g) hframe, fun q => ?_⟩
  rw [itemDone_mem, hmem]
  simp only [Memory.read_write, eq_comm]
  rfl

end Sys2Proof.Machine
end

section
/-! PROOFS. The family of `41_plane_ops.md`, second part: a frame command issued and run to its end in any order of its
work-items (R111, R112, R113), as one induction principle for what its work-items do. -/

namespace Sys2Proof.Machine

/-! ### No access of a launched command fails -/

/-- The accesses of a work-item lie in the command's footprints (R72). -/
theorem itemAccesses_mem_footprint {i : Instr} {s : State} {g : Nat} (hg : g < s.n) {p : Nat × AccessKind}
    (hp : p ∈ itemAccesses i (workItem s.w g) s) :
    p.2 = .read ∧ p.1 ∈ readFootprint i s ∨ p.2 = .write ∧ p.1 ∈ writeFootprint i s := by
  obtain ⟨hrow, hcol, hcrow, hccol⟩ := workItem_in_frame hg
  have hluma : ∀ q : PlaneRegs, planeAddr q (workItem s.w g).row (workItem s.w g).col ∈ planeRegion q s.h s.w :=
    fun q => mem_planeRegion.2 ⟨_, hrow, _, hcol, rfl⟩
  have hchroma : ∀ q : PlaneRegs, planeAddr q (workItem s.w g).crow (workItem s.w g).ccol ∈ planeRegion q s.ch s.cw :=
    fun q => mem_planeRegion.2 ⟨_, hcrow, _, hccol, rfl⟩
  have hplanes : ∀ {q : Nat × AccessKind}, q ∈ planeWrites (workItem s.w g) s →
      q.2 = .write ∧ q.1 ∈ (dstPlanes s).flatten := by
    intro q hq
    unfold planeWrites at hq
    split at hq <;> simp only [List.mem_cons, List.not_mem_nil, or_false] at hq
    · rcases hq with rfl | rfl | rfl <;> simp [dstPlanes, hluma, hchroma]
    · subst hq; simp [dstPlanes, hluma]
  cases i
  case nop | init | reset | map1 | map2 | map3 => cases hp
  case reduce =>
    obtain rfl := List.mem_singleton.1 hp
    simp [readFootprint, readRegions, hluma]
  case pack =>
    simp only [itemAccesses, List.mem_cons, List.not_mem_nil, or_false] at hp
    rcases hp with rfl | rfl | rfl <;> simp [readFootprint, readRegions, hluma, hchroma]
  case unpackp | unpackn => exact .inr (hplanes hp)
  case emit =>
    obtain ⟨k, hk, rfl⟩ := List.mem_map.1 hp
    have hpixel : pixelAddr s.regs.dstI _ _ k ∈ pixelRegion s.regs.dstI s.h s.w :=
      mem_pixelRegion.2 ⟨_, hrow, _, hcol, k, List.mem_range.1 hk, rfl⟩
    exact .inr ⟨rfl, by simpa [writeFootprint, writeRegions] using hpixel⟩
  case kern3 =>
    rcases List.mem_cons.1 hp with rfl | hp
    · simp [readFootprint, readRegions, hluma]
    · exact .inr (hplanes hp)

/-- Where the platform answers the footprints, no work-item faults (R71). -/
theorem itemFaults_eq_false {i : Instr} {s : State} (hanswers : footprintAnswers i s = true) {g : Nat} (hg : g < s.n) :
    itemFaults i (workItem s.w g) s = false := by
  simp only [footprintAnswers, Bool.and_eq_true, List.all_eq_true, Bool.not_eq_true'] at hanswers
  obtain ⟨hreads, hwrites⟩ := hanswers
  refine List.any_eq_false.2 fun p hp => ?_
  rw [Bool.not_eq_true]
  rcases itemAccesses_mem_footprint hg hp with ⟨hkind, hmem⟩ | ⟨hkind, hmem⟩
  · rw [hkind]; exact hreads _ hmem
  · rw [hkind]; exact hwrites _ hmem

/-- Whether a work-item faults depends on the registers and the platform alone. -/
theorem itemFaults_congr {s u : State} (hregs : u.regs = s.regs) (hcfg : u.cfg = s.cfg) (i : Instr) (x : WorkItem) :
    itemFaults i x u = itemFaults i x s := by
  cases i <;> simp only [itemFaults, itemAccesses, planeWrites, hregs, hcfg]

/-! ### A command under way -/

/-- The command `i`, launched in `s`, is under way in `u`: all that its work-items do not write is as its launch left it,
and GID and the work-items left account for all N (R35, R112). -/
structure Underway (i : Instr) (s u : State) : Prop where
  running : u.running = some i
  regs : u.regs = s.regs
  cfg : u.cfg = s.cfg
  status : u.status = (launch i s).status
  smooth : u.smooth = (launch i s).smooth
  rdata : u.rdata = s.rdata
  mdata : u.mdata = s.mdata
  freeCtr : u.freeCtr = s.freeCtr
  todoNodup : u.todo.Nodup
  todoBelow : ∀ g ∈ u.todo, g < s.n
  count : u.gid.toNat + u.todo.length = s.n

theorem Underway.w_eq {i : Instr} {s u : State} (h : Underway i s u) : u.w = s.w := by rw [State.w, h.regs, State.w]

theorem Underway.n_eq {i : Instr} {s u : State} (h : Underway i s u) : u.n = s.n := by
  rw [State.n, State.n, State.w, State.h, h.regs]; rfl

/-- A command just launched is under way. -/
theorem underway_launch (i : Instr) (s : State) : Underway i s (launch i s) where
  running := by rw [launch, frameCmd_setup]
  regs := by rw [launch, frameCmd_setup]; rfl
  cfg := by rw [launch, frameCmd_setup]; rfl
  status := rfl
  smooth := rfl
  rdata := by rw [launch, frameCmd_setup]; rfl
  mdata := by rw [launch, frameCmd_setup]; rfl
  freeCtr := by rw [launch, frameCmd_setup]; rfl
  todoNodup := by rw [launch, frameCmd_setup]; exact List.nodup_range
  todoBelow := by rw [launch, frameCmd_setup]; exact fun g => List.mem_range.1
  count := by rw [launch, frameCmd_setup]; simp

/-- A command stays under way when moves are taken and choices made. -/
theorem Underway.with_moves {i : Instr} {s u : State} (h : Underway i s u) (k : Nat) (l : List Event) :
    Underway i s { u with pick := k, agenda := l } :=
  { h with }

/-- A command stays under way when one of its work-items completes. -/
theorem Underway.after_item {i : Instr} {s u v : State} {g : Nat} (h : Underway i s u) (hg : g ∈ u.todo)
    (he : ItemEffect i g u v) : Underway i s (itemDone g v) := by
  have hpos := List.length_pos_of_mem hg
  have hlen := List.length_erase_of_mem hg
  have hn := s.n_lt
  have hcount := h.count
  rw [he.itemDone_eq]
  exact
    { h with
      todoNodup := h.todoNodup.erase g
      todoBelow := fun a ha => h.todoBelow a (List.mem_of_mem_erase ha)
      count := by
        show (u.gid + 1).toNat + (u.todo.erase g).length = s.n
        have hsucc : (u.gid + 1).toNat = u.gid.toNat + 1 := by bv_omega
        omega }

/-- A command under way with no work-item left completes (R113). -/
theorem Underway.completed {i : Instr} {s u : State} {rest : List Event} (h : Underway i s u) (htodo : u.todo = [])
    (hagenda : u.agenda = rest) : Completed rest s (complete ((frameCmd i).finish u)) := by
  rw [frameCmd_finish]
  exact
    { idle := rfl
      gid := by simpa [htodo] using h.count
      todo := htodo, regs := h.regs, cfg := h.cfg, rdata := h.rdata, mdata := h.mdata, freeCtr := h.freeCtr
      agenda := hagenda }

/-- With the engine's move next, a step is a turn of the engine with that move's choice. -/
theorem step_turn {i : Instr} {u : State} {k : Nat} {l : List Event} (hi : isFrame i = true)
    (hrun : u.running = some i) (hagenda : u.agenda = .engine k :: l) :
    step u = .next (engineTurn i (frameCmd i) { u with pick := k, agenda := l }) := by
  rw [((stepGivesTheEngineItsTurns u).1 i hrun).1 k l hagenda,
    exec_running (s := { u with pick := k, agenda := l }) hrun, if_pos hi]

/-! ### Induction over the work-items of a command -/

section
variable {i : Instr} {s : State} (hi : isFrame i = true) (hanswers : footprintAnswers i s = true)
  {P : State → Prop} (hmoves : ∀ u k l, P u → P { u with pick := k, agenda := l })
  (hitem : ∀ u g v, Underway i s u → P u → g ∈ u.todo → (frameCmd i).body (workItem s.w g) u = some v →
    P (itemDone g v))
include hi hanswers hmoves hitem

/-- A turn of a command under way that has work-items left completes one of them, and keeps what they all keep. -/
theorem Underway.turn {u : State} {k : Nat} {l : List Event} (h : Underway i s u) (hP : P u) (htodo : u.todo ≠ [])
    (hagenda : u.agenda = .engine k :: l) :
    ∃ v, step u = .next v ∧ Underway i s v ∧ P v ∧ v.todo.length + 1 = u.todo.length ∧ v.agenda = l := by
  rw [step_turn hi h.running hagenda]
  have hu := h.with_moves k l
  rcases engineTurn_cases i (frameCmd i) { u with pick := k, agenda := l } with
    ⟨hnil, -⟩ | ⟨g, v, hg, hbody, heq⟩ | ⟨g, hg, hbody, -⟩
  · exact absurd hnil htodo
  · have hmem := nextGid_mem hg
    have he := frameCmd_body_effect hbody
    rw [hu.w_eq] at hbody
    refine ⟨_, congrArg _ heq, hu.after_item hmem he, hitem _ g v hu (hmoves u k l hP) hmem hbody, ?_, ?_⟩
    · rw [he.itemDone_eq]
      exact List.length_erase_add_one hmem
    · rw [he.itemDone_eq]
  · rw [frameCmd_body_eq_none_iff hi, hu.w_eq, itemFaults_congr hu.regs hu.cfg,
      itemFaults_eq_false hanswers (hu.todoBelow g (nextGid_mem hg))] at hbody
    cases hbody

/-- With a turn for every work-item left and one for the epilogue, a command under way runs to its end, and what its
work-items keep holds when the last of them has completed. -/
theorem Underway.runs_to_end {rest : List Event} {u : State} {ks : List Nat} (h : Underway i s u) (hP : P u)
    (hlen : ks.length = u.todo.length + 1) (hagenda : u.agenda = ks.map .engine ++ rest) :
    ∃ v, runsTo ks.length u (complete ((frameCmd i).finish v)) ∧ Underway i s v ∧ P v ∧ v.todo = [] ∧
      v.agenda = rest := by
  induction ks generalizing u with
  | nil => cases hlen
  | cons k ks ih =>
    by_cases htodo : u.todo = []
    · obtain rfl : ks = [] := by simpa [htodo] using hlen
      refine ⟨{ u with pick := k, agenda := rest }, runsTo_succ ?_ (runsTo_zero _), h.with_moves k rest,
        hmoves u k rest hP, htodo, rfl⟩
      rw [step_turn hi h.running hagenda, engineTurn_of_todo_nil (s := { u with pick := k, agenda := _ }) htodo]
      rfl
    · obtain ⟨v, hstep, hv, hPv, hleft, hmovesLeft⟩ :=
        Underway.turn hi hanswers hmoves hitem h hP htodo hagenda
      obtain ⟨z, hrun, hz⟩ := ih hv hPv (by simp only [List.length_cons] at hlen; omega) hmovesLeft
      exact ⟨z, runsTo_succ hstep hrun, hz⟩

omit hi in
/-- The induction principle of a frame command that is issued and given its N + 1 turns: what holds at its launch and is
kept by each of its work-items, whatever their order, holds when all of them have completed, and the command then ends
(R111, R112, R113). -/
theorem Launchable.runs_to_end (hl : Launchable i s) {ks : List Nat} {rest : List Event} (hlen : ks.length = s.n + 1)
    (hagenda : s.agenda = issueMoves i ks ++ rest) (hstart : P (launch i s)) :
    ∃ v, runsTo (s.n + 2) s (complete ((frameCmd i).finish v)) ∧ Underway i s v ∧ P v ∧ v.todo = [] ∧
      v.agenda = rest := by
  have hl' : Launchable i { s with agenda := ks.map .engine ++ rest } := { hl with }
  have hissue : step s = .next { launch i s with agenda := ks.map .engine ++ rest } := by
    calc step s = exec i { s with agenda := ks.map .engine ++ rest } :=
          stepRunsTheIssuedCommand s (encode i) i _ hagenda hl.idle (decode_encode i)
      _ = .next (launch i { s with agenda := ks.map .engine ++ rest }) := hl'.exec_eq_launch
      _ = .next { launch i s with agenda := ks.map .engine ++ rest } := by
          rw [launch, launch, frameCmd_setup, frameCmd_setup]; rfl
  have htodo : (launch i s).todo.length = s.n := by rw [launch, frameCmd_setup]; exact List.length_range
  obtain ⟨v, hrun, hv⟩ := Underway.runs_to_end (ks := ks) (rest := rest) hl.frame hanswers hmoves hitem
    ((underway_launch i s).with_moves (launch i s).pick (ks.map .engine ++ rest)) (hmoves _ _ _ hstart)
    (by rw [hlen]; exact congrArg (· + 1) htodo.symm) rfl
  rw [hlen] at hrun
  exact ⟨v, runsTo_succ hissue hrun, hv⟩

end

end Sys2Proof.Machine
end

section
/-! PROOFS. The family of `41_plane_ops.md`, third part: what each plane operation leaves when it has run to its end
(R130 to R135), from what holds of the work-items that have completed so far. -/

namespace Sys2Proof.Machine

/-- What held of the completed work-items holds of the one just completed and of those before it. -/
theorem not_mem_of_not_mem_erase {l : List Nat} {g a : Nat} (h : a ∉ l.erase g) : a = g ∨ a ∉ l :=
  or_iff_not_imp_left.2 fun hne hmem => h ((List.mem_erase_of_ne hne).2 hmem)

/-- At its launch every work-item of the frame is still to run. -/
theorem mem_launch_todo {i : Instr} {s : State} {g : Nat} : g ∈ (launch i s).todo ↔ g < s.n := by
  rw [launch, frameCmd_setup]
  exact List.mem_range

/-! ### REDUCE -/

/-- The luma sample of the pixel `g` (R62, R112). -/
def lumaSample (s : State) (g : Nat) : Byte :=
  s.mem.read (planeAddr s.regs.srcY (workItem s.w g).row (workItem s.w g).col)

theorem lumaSample_at {s : State} {r c : Nat} (hc : c < s.w) :
    lumaSample s (r * s.w + c) = s.mem.read (planeAddr s.regs.srcY r c) := by
  obtain ⟨hrow, hcol⟩ := workItem_at (r := r) hc
  rw [lumaSample, hrow, hcol]

/-- The accumulators after some work-items of REDUCE: they bound the samples taken in, and each is its start value or a
sample (R130). -/
structure ReducedSoFar (s u : State) : Prop where
  mem : u.mem = s.mem
  wbuf : u.wbuf = s.wbuf
  bounds : ∀ g < s.n, g ∉ u.todo → u.statMin.toNat ≤ (lumaSample s g).toNat ∧ (lumaSample s g).toNat ≤ u.statMax.toNat
  minTaken : u.statMin = 255 ∨ ∃ g < s.n, u.statMin = lumaSample s g
  maxTaken : u.statMax = 0 ∨ ∃ g < s.n, u.statMax = lumaSample s g

/-- After taking in a sample the accumulators bound it and what they bounded before (R130). -/
theorem accumulate_bounds (y : Byte) (s : State) :
    ((accumulate y s).statMin.toNat ≤ y.toNat ∧ y.toNat ≤ (accumulate y s).statMax.toNat) ∧
      (accumulate y s).statMin.toNat ≤ s.statMin.toNat ∧ s.statMax.toNat ≤ (accumulate y s).statMax.toNat := by
  rw [accumulate_statMin, accumulate_statMax]
  constructor <;> constructor <;> split <;> omega

theorem reducedSoFar_launch (s : State) : ReducedSoFar s (launch .reduce s) where
  mem := rfl
  wbuf := rfl
  bounds _ hg hdone := absurd (mem_launch_todo.2 hg) hdone
  minTaken := .inl rfl
  maxTaken := .inl rfl

theorem ReducedSoFar.item {s u v : State} {g : Nat} (h : ReducedSoFar s u) (hu : Underway .reduce s u)
    (hg : g ∈ u.todo) (hbody : reduceItem (workItem s.w g) u = some v) : ReducedSoFar s (itemDone g v) := by
  have hv : v = accumulate (lumaSample s g) u := by
    rw [reduceItem_eq_some hbody, h.mem, hu.regs]; rfl
  obtain ⟨hnew, hmin, hmax⟩ := accumulate_bounds (lumaSample s g) u
  have hbelow := hu.todoBelow g hg
  rw [hv]
  exact
    { mem := h.mem
      wbuf := h.wbuf
      bounds := fun a ha hdone => by
        rcases not_mem_of_not_mem_erase hdone with rfl | hbefore
        · exact hnew
        · obtain ⟨hlo, hhi⟩ := h.bounds a ha hbefore
          exact ⟨hmin.trans hlo, hhi.trans hmax⟩
      minTaken := by
        rw [itemDone_statMin, accumulate_statMin]
        split
        · exact .inr ⟨g, hbelow, rfl⟩
        · exact h.minTaken
      maxTaken := by
        rw [itemDone_statMax, accumulate_statMax]
        split
        · exact .inr ⟨g, hbelow, rfl⟩
        · exact h.maxTaken }

/-- With every sample of a frame of one pixel or more taken in, the accumulators are samples: a start value that is a
bound is the first sample itself (R130). -/
theorem ReducedSoFar.attained {s u : State} (h : ReducedSoFar s u) (htodo : u.todo = []) (hn : 0 < s.n) :
    (∃ g < s.n, u.statMin = lumaSample s g) ∧ (∃ g < s.n, u.statMax = lumaSample s g) := by
  obtain ⟨hlo, hhi⟩ := h.bounds 0 hn (by simp [htodo])
  refine ⟨h.minTaken.elim (fun hmin => ⟨0, hn, ?_⟩) id, h.maxTaken.elim (fun hmax => ⟨0, hn, ?_⟩) id⟩
  · rw [hmin] at hlo ⊢; bv_omega
  · rw [hmax] at hhi ⊢; bv_omega

/-- A sample of the frame, by its flat index, is one at a row and a column. -/
theorem exists_position {s : State} {y : Byte} (h : ∃ g < s.n, y = lumaSample s g) :
    ∃ r < s.h, ∃ c < s.w, y = s.mem.read (planeAddr s.regs.srcY r c) := by
  obtain ⟨g, hg, hy⟩ := h
  obtain ⟨hrow, hcol, -⟩ := workItem_in_frame hg
  exact ⟨_, hrow, _, hcol, hy⟩

/-- Settles O22, by induction over the work-items. -/
theorem reduceFindsTheExtremeSamples : Obligations.ReduceFindsTheExtremeSamples := by
  intro s ks rest hl hanswers hlen hagenda
  obtain ⟨u, hrun, hu, hdone, htodo, hrest⟩ := hl.runs_to_end hanswers (P := ReducedSoFar s)
    (fun _ _ _ h => { h with }) (fun _ _ _ hu h hg hbody => h.item hu hg hbody) hlen hagenda (reducedSoFar_launch s)
  refine ⟨_, hrun, hu.completed htodo hrest, ?_, hdone.mem, hdone.wbuf, hu.smooth, fun r hr c hc => ?_, fun hn => ?_⟩
  · rw [frameCmd_finish, complete_status, hu.status]; rfl
  · rw [← lumaSample_at hc]
    exact hdone.bounds _ (index_lt hr hc) (by simp [htodo])
  · obtain ⟨hmin, hmax⟩ := hdone.attained htodo hn
    exact ⟨exists_position hmin, exists_position hmax⟩

/-! ### PACK -/

/-- The pixel that PACK makes of the planes for the work-item `x` (R131). -/
def packedPixel (s : State) (x : WorkItem) : Pixel :=
  { c0 := s.mem.read (planeAddr s.regs.srcY x.row x.col)
    c1 := s.mem.read (planeAddr s.regs.srcA x.crow x.ccol)
    c2 := s.mem.read (planeAddr s.regs.srcB x.crow x.ccol), c3 := 0 }

theorem packedPixel_at {s : State} {r c : Nat} (hc : c < s.w) :
    packedPixel s (workItem s.w (r * s.w + c)) =
      { c0 := s.mem.read (planeAddr s.regs.srcY r c)
        c1 := s.mem.read (planeAddr s.regs.srcA (r / 2) (c / 2))
        c2 := s.mem.read (planeAddr s.regs.srcB (r / 2) (c / 2)), c3 := 0 } := by
  obtain ⟨hrow, hcol⟩ := workItem_at (r := r) hc
  have hcrow : (workItem s.w (r * s.w + c)).crow = r / 2 := congrArg (· / 2) hrow
  have hccol : (workItem s.w (r * s.w + c)).ccol = c / 2 := congrArg (· / 2) hcol
  rw [packedPixel, hrow, hcol, hcrow, hccol]

/-- The working buffer after some work-items of PACK: theirs are the packed pixels, and outside the frame it is as it
was (R131). -/
structure PackedSoFar (s u : State) : Prop where
  mem : u.mem = s.mem
  statMin : u.statMin = s.statMin
  statMax : u.statMax = s.statMax
  packed : ∀ g < s.n, g ∉ u.todo → sparseFind u.wbuf g = some (packedPixel s (workItem s.w g))
  beyond : ∀ g, s.n ≤ g → sparseFind u.wbuf g = sparseFind s.wbuf g

theorem packedSoFar_launch (s : State) : PackedSoFar s (launch .pack s) where
  mem := rfl
  statMin := rfl
  statMax := rfl
  packed _ hg hdone := absurd (mem_launch_todo.2 hg) hdone
  beyond _ _ := rfl

theorem PackedSoFar.item {s u v : State} {g : Nat} (h : PackedSoFar s u) (hu : Underway .pack s u) (hg : g ∈ u.todo)
    (hbody : packItem (workItem s.w g) u = some v) : PackedSoFar s (itemDone g v) := by
  have hv : v = wbufWrite g (packedPixel s (workItem s.w g)) u := by
    rw [packItem_eq_some hbody, h.mem, hu.regs]; rfl
  have hbelow := hu.todoBelow g hg
  rw [hv]
  exact
    { mem := h.mem
      statMin := h.statMin
      statMax := h.statMax
      packed := fun a ha hdone => by
        rw [itemDone_wbuf, wbufWrite_wbuf]
        rcases not_mem_of_not_mem_erase hdone with rfl | hbefore
        · exact sparseFind_insert_same ..
        · have hne : g ≠ a := fun hga => hbefore (hga ▸ hg)
          rw [sparseFind_insert_other _ _ hne, h.packed a ha hbefore]
      beyond := fun a ha => by
        rw [itemDone_wbuf, wbufWrite_wbuf, sparseFind_insert_other _ _ (by omega), h.beyond a ha] }

/-- Settles O23, by induction over the work-items. -/
theorem packFillsTheWorkingBuffer : Obligations.PackFillsTheWorkingBuffer := by
  intro s ks rest hl hanswers hlen hagenda
  obtain ⟨u, hrun, hu, hdone, htodo, hrest⟩ := hl.runs_to_end hanswers (P := PackedSoFar s)
    (fun _ _ _ h => { h with }) (fun _ _ _ hu h hg hbody => h.item hu hg hbody) hlen hagenda (packedSoFar_launch s)
  refine ⟨_, hrun, hu.completed htodo hrest, ?_, hdone.mem, hu.smooth, hdone.statMin, hdone.statMax,
    fun r hr c hc => ?_, hdone.beyond⟩
  · rw [frameCmd_finish, complete_status, hu.status]; rfl
  · rw [← packedPixel_at hc]
    exact hdone.packed _ (index_lt hr hc) (by simp [htodo])

end Sys2Proof.Machine
end

section
/-! PROOFS. The family of `41_plane_ops.md`, fourth part: the commands that write frame memory (R72, R132, R133, R134,
R180), which write each address of their footprint once, and the round trip of PACK and UNPACKP (R135). -/

namespace Sys2Proof.Machine

/-! ### An address is written by one work-item only -/

/-- A work-item is determined by its position. -/
theorem eq_of_position_eq {w g g' : Nat} (hrow : (workItem w g).row = (workItem w g').row)
    (hcol : (workItem w g).col = (workItem w g').col) : g = g' := by
  rw [workItem_index w g, hrow, hcol, ← workItem_index w g']

/-- A representative is determined by its block (R132). -/
theorem eq_of_block_eq {w g g' : Nat} (hrep : (workItem w g).rep = true) (hrep' : (workItem w g').rep = true)
    (hcrow : (workItem w g).crow = (workItem w g').crow) (hccol : (workItem w g).ccol = (workItem w g').ccol) :
    g = g' := by
  obtain ⟨hrow, hcol⟩ := (workItem_rep_iff w g).1 hrep
  obtain ⟨hrow', hcol'⟩ := (workItem_rep_iff w g').1 hrep'
  have hr : (workItem w g).row / 2 = (workItem w g').row / 2 := hcrow
  have hc : (workItem w g).col / 2 = (workItem w g').col / 2 := hccol
  exact eq_of_position_eq (w := w) (by omega) (by omega)

/-- In a plane whose region lists no address twice, an address determines its position (R73). -/
theorem position_eq_of_nodup {p : PlaneRegs} {rows cols r c r' c' : Nat} (hnodup : (planeRegion p rows cols).Nodup)
    (hr : r < rows) (hc : c < cols) (hr' : r' < rows) (hc' : c' < cols) (h : planeAddr p r c = planeAddr p r' c') :
    r = r' ∧ c = c' := by
  rw [planeRegion_eq_map_product] at hnodup
  have hmem : ∀ {a b}, a < rows → b < cols → (a, b) ∈ List.range rows ×ˢ List.range cols := fun ha hb =>
    List.mem_product.2 ⟨List.mem_range.2 ha, List.mem_range.2 hb⟩
  exact Prod.ext_iff.1 (List.inj_on_of_nodup_map hnodup (hmem hr hc) (hmem hr' hc') h)

/-- The no-overlap requirement for the destination planes: each lists no address twice, and no two share one (R73). -/
theorem dstPlanes_nodup_iff (s : State) :
    (dstPlanes s).flatten.Nodup ↔
      ((planeRegion s.regs.dstY s.h s.w).Nodup ∧ (planeRegion s.regs.dstA s.ch s.cw).Nodup ∧
        (planeRegion s.regs.dstB s.ch s.cw).Nodup) ∧
      (planeRegion s.regs.dstY s.h s.w).Disjoint (planeRegion s.regs.dstA s.ch s.cw) ∧
      (planeRegion s.regs.dstY s.h s.w).Disjoint (planeRegion s.regs.dstB s.ch s.cw) ∧
      (planeRegion s.regs.dstA s.ch s.cw).Disjoint (planeRegion s.regs.dstB s.ch s.cw) := by
  rw [List.nodup_flatten]
  simp [dstPlanes, and_assoc]

theorem mem_planeBytes {x : WorkItem} {o : Byte × Byte × Byte} {s : State} {p : Host.Cell} :
    p ∈ planeBytes x o s ↔ p = (planeAddr s.regs.dstY x.row x.col, o.1) ∨
      x.rep = true ∧ (p = (planeAddr s.regs.dstA x.crow x.ccol, o.2.1) ∨
        p = (planeAddr s.regs.dstB x.crow x.ccol, o.2.2)) := by
  by_cases hrep : x.rep = true <;> simp [planeBytes, hrep]

/-- A byte of a work-item goes to its place in one of the three destination planes. -/
theorem planeBytes_cases {s : State} {g : Nat} (hg : g < s.n) {o : Byte × Byte × Byte} {p : Host.Cell}
    (hp : p ∈ planeBytes (workItem s.w g) o s) :
    (p.1 ∈ planeRegion s.regs.dstY s.h s.w ∧
      p.1 = planeAddr s.regs.dstY (workItem s.w g).row (workItem s.w g).col ∧ p.2 = o.1) ∨
    (p.1 ∈ planeRegion s.regs.dstA s.ch s.cw ∧ (workItem s.w g).rep = true ∧
      p.1 = planeAddr s.regs.dstA (workItem s.w g).crow (workItem s.w g).ccol ∧ p.2 = o.2.1) ∨
    (p.1 ∈ planeRegion s.regs.dstB s.ch s.cw ∧ (workItem s.w g).rep = true ∧
      p.1 = planeAddr s.regs.dstB (workItem s.w g).crow (workItem s.w g).ccol ∧ p.2 = o.2.2) := by
  obtain ⟨hrow, hcol, hcrow, hccol⟩ := workItem_in_frame hg
  rcases mem_planeBytes.1 hp with rfl | ⟨hrep, rfl | rfl⟩
  · exact .inl ⟨mem_planeRegion.2 ⟨_, hrow, _, hcol, rfl⟩, rfl, rfl⟩
  · exact .inr (.inl ⟨mem_planeRegion.2 ⟨_, hcrow, _, hccol, rfl⟩, hrep, rfl, rfl⟩)
  · exact .inr (.inr ⟨mem_planeRegion.2 ⟨_, hcrow, _, hccol, rfl⟩, hrep, rfl, rfl⟩)

/-- Two work-items that write the same address of the destination planes are the same, so they write the same byte. -/
theorem planeBytes_agree {s : State} (hnodup : (dstPlanes s).flatten.Nodup) (o : Nat → Byte × Byte × Byte) {g g' : Nat}
    (hg : g < s.n) (hg' : g' < s.n) {p p' : Host.Cell} (hp : p ∈ planeBytes (workItem s.w g) (o g) s)
    (hp' : p' ∈ planeBytes (workItem s.w g') (o g') s) (haddr : p.1 = p'.1) : p.2 = p'.2 := by
  obtain ⟨⟨hY, hA, hB⟩, hYA, hYB, hAB⟩ := (dstPlanes_nodup_iff s).1 hnodup
  obtain ⟨hrow, hcol, hcrow, hccol⟩ := workItem_in_frame hg
  obtain ⟨hrow', hcol', hcrow', hccol'⟩ := workItem_in_frame hg'
  rcases planeBytes_cases hg hp with ⟨hin, ha, hv⟩ | ⟨hin, hrep, ha, hv⟩ | ⟨hin, hrep, ha, hv⟩ <;>
    rcases planeBytes_cases hg' hp' with ⟨hin', ha', hv'⟩ | ⟨hin', hrep', ha', hv'⟩ | ⟨hin', hrep', ha', hv'⟩
  · obtain ⟨hr, hc⟩ := position_eq_of_nodup hY hrow hcol hrow' hcol' (ha.symm.trans (haddr.trans ha'))
    rw [hv, hv', eq_of_position_eq hr hc]
  · exact (hYA hin (haddr ▸ hin')).elim
  · exact (hYB hin (haddr ▸ hin')).elim
  · exact (hYA hin' (haddr ▸ hin)).elim
  · obtain ⟨hr, hc⟩ := position_eq_of_nodup hA hcrow hccol hcrow' hccol' (ha.symm.trans (haddr.trans ha'))
    rw [hv, hv', eq_of_block_eq hrep hrep' hr hc]
  · exact (hAB hin (haddr ▸ hin')).elim
  · exact (hYB hin' (haddr ▸ hin)).elim
  · exact (hAB hin' (haddr ▸ hin)).elim
  · obtain ⟨hr, hc⟩ := position_eq_of_nodup hB hcrow hccol hcrow' hccol' (ha.symm.trans (haddr.trans ha'))
    rw [hv, hv', eq_of_block_eq hrep hrep' hr hc]

/-- Two work-items of EMIT that write the same address are the same, and write the same component there (R65). -/
theorem pixelAddr_inj {s : State} (hnodup : (pixelRegion s.regs.dstI s.h s.w).Nodup) {g g' k k' : Nat} (hg : g < s.n)
    (hg' : g' < s.n) (hk : k < 4) (hk' : k' < 4)
    (haddr : pixelAddr s.regs.dstI (workItem s.w g).row (workItem s.w g).col k =
      pixelAddr s.regs.dstI (workItem s.w g').row (workItem s.w g').col k') : g = g' ∧ k = k' := by
  obtain ⟨hrow, hcol, -⟩ := workItem_in_frame hg
  obtain ⟨hrow', hcol', -⟩ := workItem_in_frame hg'
  rw [pixelRegion_eq_planeRegion] at hnodup
  rw [pixelAddr, pixelAddr, Nat.add_assoc _ _ k, Nat.add_assoc _ _ k'] at haddr
  obtain ⟨hr, hbyte⟩ := position_eq_of_nodup hnodup hrow (by omega) hrow' (by omega) haddr
  exact ⟨eq_of_position_eq hr (by omega), by omega⟩

/-- The no-overlap requirement written out (R73). -/
theorem noOverlap_iff {i : Instr} {s : State} :
    noOverlap i s = true ↔ (writeFootprint i s).Nodup ∧ (∀ r ∈ readRegions i s, r.Nodup) ∧
      ∀ a ∈ writeFootprint i s, a ∉ readFootprint i s := by
  simp [noOverlap, and_assoc]

/-- Under the no-overlap requirement two work-items that write the same address write the same byte there (R73, R74). -/
theorem itemBytes_agree {i : Instr} {s : State} (hoverlap : noOverlap i s = true) {g g' : Nat} (hg : g < s.n)
    (hg' : g' < s.n) {p p' : Host.Cell} (hp : p ∈ itemBytes i (workItem s.w g) s)
    (hp' : p' ∈ itemBytes i (workItem s.w g') s) (haddr : p.1 = p'.1) : p.2 = p'.2 := by
  obtain ⟨hnodup, -, -⟩ := noOverlap_iff.1 hoverlap
  cases i
  case unpackp | unpackn | kern3 =>
    exact planeBytes_agree hnodup (fun g => planeTriple _ (workItem s.w g) s) hg hg' hp hp' haddr
  case emit =>
    obtain ⟨k, hk, rfl⟩ := List.mem_map.1 hp
    obtain ⟨k', hk', rfl⟩ := List.mem_map.1 hp'
    obtain ⟨rfl, rfl⟩ := pixelAddr_inj (by simpa [writeFootprint, writeRegions] using hnodup) hg hg'
      (List.mem_range.1 hk) (List.mem_range.1 hk') haddr
    rfl
  all_goals cases hp

/-! ### A command that writes frame memory, run to its end -/

/-- The acceptance of a command that writes frame memory sets nothing of its own. -/
theorem launch_of_writesMemory {i : Instr} (hi : writesMemory i = true) (s : State) :
    launch i s = { setDone false s with running := some i, gid := 0, todo := List.range s.n } := by
  cases i
  case unpackp | unpackn | kern3 | emit => rfl
  all_goals cases hi

/-- A command that writes frame memory has no final action. -/
theorem finish_of_writesMemory {i : Instr} (hi : writesMemory i = true) (s : State) : (frameCmd i).finish s = s := by
  cases i
  case unpackp | unpackn | kern3 | emit => rfl
  all_goals cases hi

/-- The write footprint depends on the registers alone (R72). -/
theorem writeFootprint_congr {s u : State} (hregs : u.regs = s.regs) (i : Instr) :
    writeFootprint i u = writeFootprint i s := by
  cases i <;> simp only [writeFootprint, writeRegions, dstPlanes, State.h, State.w, State.ch, State.cw, hregs]

/-- Frame memory after some work-items of a command that writes it: their bytes are written, and outside the write
footprint it is as it was (R72). -/
structure WrittenSoFar (i : Instr) (s u : State) : Prop where
  wbuf : u.wbuf = s.wbuf
  statMin : u.statMin = s.statMin
  statMax : u.statMax = s.statMax
  written : ∀ g < s.n, g ∉ u.todo → ∀ p ∈ itemBytes i (workItem s.w g) s, u.mem.read p.1 = p.2
  outside : ∀ a, a ∉ writeFootprint i s → u.mem.read a = s.mem.read a

theorem writtenSoFar_launch {i : Instr} (hi : writesMemory i = true) (s : State) : WrittenSoFar i s (launch i s) := by
  rw [launch_of_writesMemory hi]
  exact
    { wbuf := rfl, statMin := rfl, statMax := rfl
      written := fun g hg hdone => absurd (List.mem_range.2 hg) hdone
      outside := fun _ _ => rfl }

section
variable {i : Instr} {s u : State} (h : WrittenSoFar i s u) (hu : Underway i s u) (hoverlap : noOverlap i s = true)
  {g : Nat}
include h hu hoverlap

omit hu in
/-- The source plane that KERN3 reads keeps its samples: it lies outside what KERN3 writes (R73). -/
theorem WrittenSoFar.luma_eq (hkern3 : i = .kern3) (hg : g < s.n) :
    u.mem.read (planeAddr s.regs.srcY (workItem s.w g).row (workItem s.w g).col) =
      s.mem.read (planeAddr s.regs.srcY (workItem s.w g).row (workItem s.w g).col) := by
  obtain ⟨hrow, hcol, -⟩ := workItem_in_frame hg
  obtain ⟨-, -, hdisjoint⟩ := noOverlap_iff.1 hoverlap
  refine h.outside _ fun hwritten => hdisjoint _ hwritten ?_
  rw [hkern3]
  simpa [readFootprint, readRegions] using mem_planeRegion.2 ⟨_, hrow, _, hcol, rfl⟩

/-- The bytes of a work-item are those of the state at the launch. -/
theorem WrittenSoFar.itemBytes_eq (hg : g < s.n) :
    itemBytes i (workItem s.w g) u = itemBytes i (workItem s.w g) s := by
  have hpixel : wbufRead u (workItem s.w g).gid = wbufRead s (workItem s.w g).gid := by
    rw [wbufRead, h.wbuf, hu.freeCtr, wbufRead]
  have htriple : planeTriple i (workItem s.w g) u = planeTriple i (workItem s.w g) s := by
    by_cases hkern3 : i = .kern3
    · rw [planeTriple, planeTriple, if_pos hkern3, if_pos hkern3, hu.cfg, hu.regs,
        h.luma_eq hoverlap hkern3 hg]
    · rw [planeTriple, planeTriple, if_neg hkern3, if_neg hkern3, hpixel]
  have hplanes : planeBytes (workItem s.w g) (planeTriple i (workItem s.w g) u) u =
      planeBytes (workItem s.w g) (planeTriple i (workItem s.w g) s) s := by
    rw [htriple, planeBytes, planeBytes, hu.regs]
  cases i
  case unpackp | unpackn | kern3 => exact hplanes
  case emit => simp only [itemBytes, hu.regs, hpixel]
  all_goals rfl

/-- A work-item that completes writes its bytes, and overwrites those of no other. -/
theorem WrittenSoFar.item {v : State} (hi : writesMemory i = true) (hg : g ∈ u.todo)
    (hbody : (frameCmd i).body (workItem s.w g) u = some v) : WrittenSoFar i s (itemDone g v) := by
  have hbelow := hu.todoBelow g hg
  have hv : v = { u with mem := u.mem.writeAll (itemBytes i (workItem s.w g) s) } := by
    rw [frameCmd_body_writeAll hi hbody, h.itemBytes_eq hu hoverlap hbelow]
  have houtside : ∀ a, a ∉ writeFootprint i s → v.mem.read a = u.mem.read a := fun a ha => by
    rw [← hu.w_eq] at hbody
    exact frameCmd_body_read_outside (hu.n_eq ▸ hbelow) hbody (writeFootprint_congr hu.regs i ▸ ha)
  subst hv
  exact
    { wbuf := h.wbuf, statMin := h.statMin, statMax := h.statMax
      written := fun a ha hdone p hp => by
        refine Memory.read_writeAll (m := u.mem)
          (fun q hq hqp => itemBytes_agree hoverlap hbelow ha hq hp hqp) ?_
        rcases not_mem_of_not_mem_erase hdone with rfl | hbefore
        · exact .inl ⟨p, hp, rfl⟩
        · exact .inr (h.written a ha hbefore p hp)
      outside := fun a ha => (houtside a ha).trans (h.outside a ha) }

end

/-- A command that writes frame memory, issued and run to its end in any order: the bytes of every work-item are written,
no other byte changes, and nothing else changes but DONE (R72, R74, R113). -/
theorem Launchable.writes_footprint {i : Instr} {s : State} {ks : List Nat} {rest : List Event} (hl : Launchable i s)
    (hi : writesMemory i = true) (hanswers : footprintAnswers i s = true) (hlen : ks.length = s.n + 1)
    (hagenda : s.agenda = issueMoves i ks ++ rest) :
    ∃ t, runsTo (s.n + 2) s t ∧ Completed rest s t ∧
      t.status = { s.status with done := true } ∧ t.wbuf = s.wbuf ∧ t.smooth = s.smooth ∧
      t.statMin = s.statMin ∧ t.statMax = s.statMax ∧
      (∀ g < s.n, ∀ p ∈ itemBytes i (workItem s.w g) s, t.mem.read p.1 = p.2) ∧
      (∀ a, a ∉ writeFootprint i s → t.mem.read a = s.mem.read a) := by
  obtain ⟨u, hrun, hu, hdone, htodo, hrest⟩ := hl.runs_to_end hanswers (P := WrittenSoFar i s)
    (fun _ _ _ h => { h with }) (fun _ _ _ hu h hg hbody => h.item hu hl.overlap hi hg hbody) hlen hagenda
    (writtenSoFar_launch hi s)
  have hcompleted := hu.completed htodo hrest
  rw [finish_of_writesMemory hi] at hrun hcompleted
  refine ⟨_, hrun, hcompleted, ?_, hdone.wbuf, ?_, hdone.statMin, hdone.statMax,
    fun g hg => hdone.written g hg (by simp [htodo]), hdone.outside⟩
  · rw [complete_status, hu.status, launch_of_writesMemory hi]; rfl
  · rw [complete_smooth, hu.smooth, launch_of_writesMemory hi]; rfl

/-! ### UNPACKP, UNPACKN and EMIT -/

/-- The commands that write the destination planes, issued and run to their end in any order: luma for every pixel, each
chroma sample from its representative (R132, R133, R180, R181). -/
theorem Launchable.writes_planes {i : Instr} {s : State} {ks : List Nat} {rest : List Event} (hl : Launchable i s)
    (hi : i = .unpackp ∨ i = .unpackn ∨ i = .kern3) (hanswers : footprintAnswers i s = true)
    (hlen : ks.length = s.n + 1) (hagenda : s.agenda = issueMoves i ks ++ rest) :
    ∃ t, runsTo (s.n + 2) s t ∧ Completed rest s t ∧
      t.status = { s.status with done := true } ∧ t.wbuf = s.wbuf ∧ t.smooth = s.smooth ∧
      t.statMin = s.statMin ∧ t.statMax = s.statMax ∧
      (∀ r < s.h, ∀ c < s.w,
        t.mem.read (planeAddr s.regs.dstY r c) = (planeTriple i (workItem s.w (r * s.w + c)) s).1) ∧
      (∀ r < s.ch, ∀ c < s.cw,
        t.mem.read (planeAddr s.regs.dstA r c) = (planeTriple i (workItem s.w (2 * r * s.w + 2 * c)) s).2.1 ∧
        t.mem.read (planeAddr s.regs.dstB r c) = (planeTriple i (workItem s.w (2 * r * s.w + 2 * c)) s).2.2) ∧
      (∀ a, a ∉ writeFootprint i s → t.mem.read a = s.mem.read a) := by
  have hwrites : writesMemory i = true := by rcases hi with rfl | rfl | rfl <;> rfl
  have hbytes : ∀ x, itemBytes i x s = planeBytes x (planeTriple i x s) s := by
    rcases hi with rfl | rfl | rfl <;> exact fun _ => rfl
  obtain ⟨t, hrun, hcompleted, hstatus, hwbuf, hsmooth, hmin, hmax, hwritten, houtside⟩ :=
    hl.writes_footprint hwrites hanswers hlen hagenda
  refine ⟨t, hrun, hcompleted, hstatus, hwbuf, hsmooth, hmin, hmax, fun r hr c hc => ?_, fun r hr c hc => ?_, houtside⟩
  · obtain ⟨hrow, hcol⟩ := workItem_at (r := r) hc
    have h := hwritten _ (index_lt hr hc) _ (hbytes _ ▸ mem_planeBytes.2 (.inl rfl))
    rwa [hrow, hcol] at h
  · obtain ⟨-, -, hrepresentative⟩ := eachChromaSampleHasOneRepresentative s.w s.h r c hr hc
    obtain ⟨hg, hrep, hcrow, hccol⟩ := (hrepresentative _).2 rfl
    have hA := hwritten _ hg _ (hbytes _ ▸ mem_planeBytes.2 (.inr ⟨hrep, .inl rfl⟩))
    have hB := hwritten _ hg _ (hbytes _ ▸ mem_planeBytes.2 (.inr ⟨hrep, .inr rfl⟩))
    rw [hcrow, hccol] at hA hB
    exact ⟨hA, hB⟩

/-- Settles O26: what the two commands write is `planeTriple`. -/
theorem unpacksWriteThePlanes : Obligations.UnpacksWriteThePlanes := by
  intro s i ks rest hi hl hanswers hlen hagenda
  obtain ⟨t, hrun, hcompleted, hstatus, hwbuf, hsmooth, hmin, hmax, hluma, hchroma, houtside⟩ :=
    hl.writes_planes (hi.imp_right .inl) hanswers hlen hagenda
  refine ⟨t, hrun, hcompleted, hstatus, hwbuf, hsmooth, hmin, hmax, fun r hr c hc => ?_, fun r hr c hc => ?_, houtside⟩
  · rw [hluma r hr c hc]
    rcases hi with rfl | rfl <;> rfl
  · obtain ⟨hA, hB⟩ := hchroma r hr c hc
    rw [hA, hB]
    rcases hi with rfl | rfl <;> exact ⟨rfl, rfl⟩

/-- Settles O27: the four bytes of the pixel at (r, c) are those of its work-item. -/
theorem emitWritesTheInterleavedFrame : Obligations.EmitWritesTheInterleavedFrame := by
  intro s ks rest hl hanswers hlen hagenda
  obtain ⟨t, hrun, hcompleted, hstatus, hwbuf, hsmooth, hmin, hmax, hwritten, houtside⟩ :=
    hl.writes_footprint rfl hanswers hlen hagenda
  refine ⟨t, hrun, hcompleted, hstatus, hwbuf, hsmooth, hmin, hmax, fun r hr c hc => ?_, houtside⟩
  have hbyte : ∀ k < 4, t.mem.read (pixelAddr s.regs.dstI r c k) = pixelByte (wbufRead s (r * s.w + c)) k :=
    fun k hk => by
      obtain ⟨hrow, hcol⟩ := workItem_at (r := r) hc
      have h := hwritten _ (index_lt hr hc) _ (List.mem_map.2 ⟨k, List.mem_range.2 hk, rfl⟩)
      rwa [hrow, hcol] at h
  exact ⟨hbyte 0 (by decide), hbyte 1 (by decide), hbyte 2 (by decide), hbyte 3 (by decide)⟩

end Sys2Proof.Machine
end

section
/-! PROOFS. The family of `41_plane_ops.md`, fifth part: the round trip of PACK and UNPACKP (R135). -/

namespace Sys2Proof.Machine

/-! ### What a launch asks, in a state with the same registers and in one that reads back what it wrote -/

/-- What a command reads depends on the registers alone (R72). -/
theorem readRegions_congr {s u : State} (hregs : u.regs = s.regs) (i : Instr) : readRegions i u = readRegions i s := by
  cases i <;> simp only [readRegions, State.h, State.w, State.ch, State.cw, hregs]

theorem strideNeeds_congr {s u : State} (hregs : u.regs = s.regs) (i : Instr) : strideNeeds i u = strideNeeds i s := by
  cases i <;> simp only [strideNeeds, State.w, State.cw, hregs]

theorem stridesOk_congr {s u : State} (hregs : u.regs = s.regs) (i : Instr) : stridesOk i u = stridesOk i s := by
  rw [stridesOk, stridesOk, strideNeeds_congr hregs]

theorem noOverlap_congr {s u : State} (hregs : u.regs = s.regs) (i : Instr) : noOverlap i u = noOverlap i s := by
  simp only [noOverlap, readFootprint, readRegions_congr hregs, writeFootprint_congr hregs]

theorem plainFootprint_congr {s u : State} (hregs : u.regs = s.regs) (hcfg : u.cfg = s.cfg) (i : Instr) :
    plainFootprint i u = plainFootprint i s := by
  simp only [plainFootprint, readFootprint, readRegions_congr hregs, writeFootprint_congr hregs, hcfg]

theorem footprintAnswers_congr {s u : State} (hregs : u.regs = s.regs) (hcfg : u.cfg = s.cfg) (i : Instr) :
    footprintAnswers i u = footprintAnswers i s := by
  simp only [footprintAnswers, readFootprint, readRegions_congr hregs, writeFootprint_congr hregs, hcfg]

/-- The destination planes taken as the source planes (R135). -/
def Regs.dstAsSrc (g : Regs) : Regs := { g with srcY := g.dstY, srcA := g.dstA, srcB := g.dstB }

section
variable {s u : State} (hregs : u.regs = s.regs.dstAsSrc) (hcfg : u.cfg = s.cfg)
include hregs

/-- With the destination planes as its source planes, PACK reads what UNPACKP writes. -/
theorem readRegions_pack_of_dstAsSrc : readRegions .pack u = writeRegions .unpackp s := by
  simp only [readRegions, writeRegions, dstPlanes, State.h, State.w, State.ch, State.cw, hregs, Regs.dstAsSrc]

theorem strideNeeds_pack_of_dstAsSrc : strideNeeds .pack u = strideNeeds .unpackp s := by
  simp only [strideNeeds, State.w, State.cw, hregs, Regs.dstAsSrc]

/-- The planes that UNPACKP may write meet what R73 asks of those that PACK reads. -/
theorem noOverlap_pack_of_dstAsSrc (hoverlap : noOverlap .unpackp s = true) : noOverlap .pack u = true := by
  obtain ⟨hnodup, -, -⟩ := noOverlap_iff.1 hoverlap
  refine noOverlap_iff.2 ⟨List.nodup_nil, ?_, fun a ha => absurd ha List.not_mem_nil⟩
  rw [readRegions_pack_of_dstAsSrc hregs]
  exact (List.nodup_flatten.1 hnodup).1

include hcfg

theorem plainFootprint_pack_of_dstAsSrc : plainFootprint .pack u = plainFootprint .unpackp s := by
  simp only [plainFootprint, readFootprint, writeFootprint, readRegions_pack_of_dstAsSrc hregs, hcfg]
  simp [writeRegions, readRegions]

theorem footprintAnswers_pack_of_dstAsSrc
    (hreads : ∀ a ∈ writeFootprint .unpackp s, memFault s.cfg a .read = false) : footprintAnswers .pack u = true := by
  have hread : readFootprint .pack u = writeFootprint .unpackp s :=
    congrArg List.flatten (readRegions_pack_of_dstAsSrc hregs)
  have hwrite : writeFootprint .pack u = [] := rfl
  simpa only [footprintAnswers, hread, hwrite, hcfg, List.all_nil, Bool.and_true, List.all_eq_true,
    Bool.not_eq_true'] using hreads

end

/-! ### PACK, then UNPACKP -/

/-- What PACK and then UNPACKP leave: the destination planes hold the samples of the source planes, and the working buffer
their packed pixels (R131, R132, R135). -/
structure RoundTripped (s t : State) : Prop where
  idle : t.running = none
  regs : t.regs = s.regs
  cfg : t.cfg = s.cfg
  status : t.status = { s.status with done := true, wbv := true }
  luma : ∀ r < s.h, ∀ c < s.w, t.mem.read (planeAddr s.regs.dstY r c) = s.mem.read (planeAddr s.regs.srcY r c)
  chroma : ∀ r < s.ch, ∀ c < s.cw,
    t.mem.read (planeAddr s.regs.dstA r c) = s.mem.read (planeAddr s.regs.srcA r c) ∧
    t.mem.read (planeAddr s.regs.dstB r c) = s.mem.read (planeAddr s.regs.srcB r c)
  wbuf : ∀ g < s.n, wbufRead t g = packedPixel s (workItem s.w g)

/-- A pixel that was written reads as written (R39). -/
theorem wbufRead_of_sparseFind {s : State} {g : Nat} {p : Pixel} (h : sparseFind s.wbuf g = some p) :
    wbufRead s g = p := by
  rw [wbufRead, h, Option.getD_some]

/-- After PACK the working buffer holds the packed pixel of every work-item (R131). -/
theorem Launchable.pack_fills {s : State} {ks : List Nat} {rest : List Event} (hl : Launchable .pack s)
    (hanswers : footprintAnswers .pack s = true) (hlen : ks.length = s.n + 1)
    (hagenda : s.agenda = issueMoves .pack ks ++ rest) :
    ∃ t, runsTo (s.n + 2) s t ∧ Completed rest s t ∧ t.status = { s.status with done := true, wbv := true } ∧
      ∀ g < s.n, wbufRead t g = packedPixel s (workItem s.w g) := by
  obtain ⟨t, hrun, hcompleted, hstatus, -, -, -, -, hpacked, -⟩ :=
    packFillsTheWorkingBuffer s ks rest hl hanswers hlen hagenda
  refine ⟨t, hrun, hcompleted, hstatus, fun g hg => ?_⟩
  obtain ⟨hrow, hcol, -⟩ := workItem_in_frame hg
  have h := wbufRead_of_sparseFind (hpacked _ hrow _ hcol)
  rwa [← workItem_index s.w g] at h

/-- PACK and then UNPACKP, each run to its end in any order (R135). -/
theorem Launchable.pack_then_unpackp {s : State} {ks ks' : List Nat} (hl : Launchable .pack s)
    (hanswers : footprintAnswers .pack s = true) (hstrides : stridesOk .unpackp s = true)
    (hoverlap : noOverlap .unpackp s = true) (hplain : plainFootprint .unpackp s = true)
    (hanswers' : footprintAnswers .unpackp s = true) (hlen : ks.length = s.n + 1) (hlen' : ks'.length = s.n + 1)
    (hagenda : s.agenda = issueMoves .pack ks ++ issueMoves .unpackp ks') :
    ∃ t, runsTo (2 * (s.n + 2)) s t ∧ RoundTripped s t := by
  obtain ⟨t, hrun, hpacked, hstatus, hpixels⟩ := hl.pack_fills hanswers hlen hagenda
  have hlt : Launchable .unpackp t :=
    { frame := rfl
      idle := hpacked.idle
      noErr := by rw [hstatus]; exact hl.noErr
      ready := by rw [hstatus]; exact hl.ready
      wbv := fun _ => by rw [hstatus]
      stv := fun hneeds => by cases hneeds
      strides := (stridesOk_congr hpacked.regs _).trans hstrides
      overlap := (noOverlap_congr hpacked.regs _).trans hoverlap
      plain := (plainFootprint_congr hpacked.regs hpacked.cfg _).trans hplain }
  have hw : t.w = s.w := congrArg (fun g : Regs => g.width.toNat) hpacked.regs
  have hh : t.h = s.h := congrArg (fun g : Regs => g.height.toNat) hpacked.regs
  have hn : t.n = s.n := by rw [State.n, hw, hh, State.n]
  have hcw : t.cw = s.cw := congrArg ceil2 hw
  have hch : t.ch = s.ch := congrArg ceil2 hh
  obtain ⟨u, hrun', hcompleted, hstatus', hwbuf, -, -, -, hluma, hchroma, -⟩ :=
    unpacksWriteThePlanes t .unpackp ks' [] (.inl rfl) hlt
      ((footprintAnswers_congr hpacked.regs hpacked.cfg _).trans hanswers') (by rw [hn, hlen'])
      (by rw [hpacked.agenda, List.append_nil])
  simp only [hw, hh, hcw, hch, hpacked.regs] at hluma hchroma
  rw [hn] at hrun'
  refine ⟨u, by rw [Nat.two_mul]; exact runsTo_add hrun hrun',
    { idle := hcompleted.idle
      regs := hcompleted.regs.trans hpacked.regs
      cfg := hcompleted.cfg.trans hpacked.cfg
      status := by rw [hstatus', hstatus]
      luma := fun r hr c hc => ?_
      chroma := fun r hr c hc => ?_
      wbuf := fun g hg => ?_ }⟩
  · rw [hluma r hr c hc, hpixels _ (index_lt hr hc), packedPixel_at hc]
  · have hrow : 2 * r < s.h := by unfold State.ch ceil2 at hr; omega
    have hcol : 2 * c < s.w := by unfold State.cw ceil2 at hc; omega
    obtain ⟨hA, hB⟩ := hchroma r hr c hc
    rw [hA, hB, hpixels _ (index_lt hrow hcol), packedPixel_at hcol, Nat.mul_div_cancel_left r Nat.two_pos,
      Nat.mul_div_cancel_left c Nat.two_pos]
    exact ⟨rfl, rfl⟩
  · rw [← hpixels g hg, wbufRead, hwbuf, hcompleted.freeCtr, wbufRead]

/-- A PACK of the planes so written makes the same pixels (R135). -/
theorem RoundTripped.packedPixel_eq {s t u : State} (h : RoundTripped s t) (hregs : u.regs = s.regs.dstAsSrc)
    (hmem : u.mem = t.mem) {g : Nat} (hg : g < s.n) :
    packedPixel u (workItem s.w g) = packedPixel s (workItem s.w g) := by
  obtain ⟨hrow, hcol, hcrow, hccol⟩ := workItem_in_frame hg
  obtain ⟨hA, hB⟩ := h.chroma _ hcrow _ hccol
  rw [packedPixel, packedPixel, hregs, hmem, ← h.luma _ hrow _ hcol, ← hA, ← hB, Regs.dstAsSrc]

/-- The host's next use of the machine: the planes just written become the source planes (R135). -/
def readBack (t : State) (moves : List Event) : State := { t with regs := t.regs.dstAsSrc, agenda := moves }

/-- A second PACK, of the planes so written, gives the same working buffer (R135). -/
theorem RoundTripped.pack_again {s t : State} {ks : List Nat} (h : RoundTripped s t) (hl : Launchable .pack s)
    (hstrides : stridesOk .unpackp s = true) (hoverlap : noOverlap .unpackp s = true)
    (hplain : plainFootprint .unpackp s = true)
    (hreads : ∀ a ∈ writeFootprint .unpackp s, memFault s.cfg a .read = false) (hlen : ks.length = s.n + 1) :
    ∃ u, runsTo (s.n + 2) (readBack t (issueMoves .pack ks)) u ∧ ∀ g < s.n, wbufRead u g = wbufRead t g := by
  have hregs : (readBack t (issueMoves .pack ks)).regs = s.regs.dstAsSrc := congrArg Regs.dstAsSrc h.regs
  have hw : (readBack t (issueMoves .pack ks)).w = s.w := by rw [State.w, hregs]; rfl
  have hn : (readBack t (issueMoves .pack ks)).n = s.n := by rw [State.n, State.w, State.h, hregs]; rfl
  have hlaunch : Launchable .pack (readBack t (issueMoves .pack ks)) :=
    { frame := rfl
      idle := h.idle
      noErr := (congrArg Status.err h.status).trans hl.noErr
      ready := (congrArg Status.ready h.status).trans hl.ready
      wbv := fun hneeds => by cases hneeds
      stv := fun hneeds => by cases hneeds
      strides := by rw [stridesOk, strideNeeds_pack_of_dstAsSrc hregs]; exact hstrides
      overlap := noOverlap_pack_of_dstAsSrc hregs hoverlap
      plain := (plainFootprint_pack_of_dstAsSrc hregs h.cfg).trans hplain }
  obtain ⟨u, hrun, -, -, hpixels⟩ := hlaunch.pack_fills (footprintAnswers_pack_of_dstAsSrc hregs h.cfg hreads)
    (by rw [hn, hlen]) (List.append_nil _).symm
  rw [hn] at hrun hpixels
  refine ⟨u, hrun, fun g hg => ?_⟩
  rw [hpixels g hg, hw, h.packedPixel_eq hregs rfl hg, h.wbuf g hg]

/-- Settles O31: the second PACK reads the planes that UNPACKP has written. -/
theorem packUnpackRoundTrip : Obligations.PackUnpackRoundTrip := by
  intro s ks1 ks2 ks3 hl hanswers hstrides hoverlap hplain hanswers' hlen1 hlen2 hlen3
  have hl' : Launchable .pack { s with agenda := issueMoves .pack ks1 ++ issueMoves .unpackp ks2 } := { hl with }
  obtain ⟨t, hrun, ht⟩ := hl'.pack_then_unpackp hanswers hstrides hoverlap hplain hanswers' hlen1 hlen2 rfl
  have hround : RoundTripped s t := { ht with }
  exact ⟨t, hrun, hround.luma, hround.chroma, fun hreads =>
    hround.pack_again hl hstrides hoverlap hplain hreads hlen3⟩

end Sys2Proof.Machine
end

section
/-! PROOFS. The family of `42_color_map.md`, first part: one work-item of MAP1, MAP2 or MAP3 (R154, R160, R165), and
each of them issued and run to its end in any order of its work-items (R113, R156). -/

namespace Sys2Proof.Machine

/-! ### The mapper of a MAP command -/

/-- In the state `s` the MAP command `i` maps component 0 of a pixel by `f` (R154, R160, R165); MAP2 does so once its
acceptance has stored the blend portion in SMOOTH (R156). -/
inductive MapsBy (s : State) : Instr → (Byte → Byte × Byte × Byte) → Prop
  | map1 : MapsBy s .map1 v1
  | map2 {mix : Rat} (hsmooth : s.smooth = some mix) : MapsBy s .map2 (v2 mix s.statMin s.statMax)
  | map3 : MapsBy s .map3 (v3 s.cfg)

section
variable {s u : State} {i : Instr} {f : Byte → Byte × Byte × Byte} (h : MapsBy s i f)
include h

theorem MapsBy.isFrame : isFrame i = true := by cases h <;> rfl

/-- A MAP command accesses no frame memory, so the platform cannot fail it (R113). -/
theorem MapsBy.footprintAnswers : footprintAnswers i u = true := by cases h <;> rfl

theorem MapsBy.itemFaults (x : WorkItem) : itemFaults i x u = false := by cases h <;> rfl

/-- The mapper depends on the blend portion, the statistics and the parameters alone. -/
theorem MapsBy.congr (hsmooth : u.smooth = s.smooth) (hmin : u.statMin = s.statMin) (hmax : u.statMax = s.statMax)
    (hcfg : u.cfg = s.cfg) : MapsBy u i f := by
  cases h with
  | map1 => exact .map1
  | map2 hmix => rw [← hmin, ← hmax]; exact .map2 (hsmooth.trans hmix)
  | map3 => rw [← hcfg]; exact .map3

/-- The body of a work-item maps its own pixel. -/
theorem MapsBy.body_eq (x : WorkItem) :
    (frameCmd i).body x s =
      some (wbufWrite x.gid (mappedPixel (f (wbufRead s x.gid).c0) (wbufRead s x.gid)) s) := by
  cases h with
  | map1 => rfl
  | @map2 mix hmix =>
    have hframe : frameMix s = mix := by rw [frameMix, hmix, Option.getD_some]
    show map2Item x s = _
    rw [map2Item, hframe, mapItem]
  | map3 => rfl

/-- The acceptance of a MAP command sets MAP2's SMOOTH and nothing else of its own (R111, R156). -/
theorem MapsBy.launch_eq (t : State) :
    launch i t = { setDone false t with
      running := some i, gid := 0, todo := List.range t.n, smooth := (launch i t).smooth } := by
  cases h <;> rfl

/-- The final action of a MAP command: MAP2 consumes the statistics (R113, R160). -/
theorem MapsBy.finish_eq (t : State) :
    (frameCmd i).finish t =
      { t with status := { t.status with stv := if i = .map2 then false else t.status.stv } } := by
  cases h <;> rfl

end

/-! ### One work-item -/

/-- Settles O17: a work-item of a MAP command has no access that could fail, and its body maps its pixel. -/
theorem mapsTransformOnePixel : Obligations.MapsTransformOnePixel := by
  intro s i g mix f hrun hg hcommand p
  have h : MapsBy s i f := by
    rcases hcommand with ⟨rfl, rfl⟩ | ⟨rfl, hsmooth, rfl⟩ | ⟨rfl, rfl⟩
    · exact .map1
    · exact .map2 hsmooth
    · exact .map3
  obtain ⟨t, hbody, hexec⟩ := exec_completes_item h.isFrame hrun hg (h.itemFaults _)
  cases (h.body_eq _).symm.trans hbody
  exact hexec

/-! ### A MAP command run to its end -/

/-- The working buffer after some work-items of a MAP command: their pixels are mapped, and those of the others, and
outside the frame, are as they were, so that no pixel is mapped twice. -/
structure MappedSoFar (f : Byte → Byte × Byte × Byte) (s u : State) : Prop where
  mem : u.mem = s.mem
  statMin : u.statMin = s.statMin
  statMax : u.statMax = s.statMax
  mapped : ∀ g < s.n, g ∉ u.todo → wbufRead u g = mappedPixel (f (wbufRead s g).c0) (wbufRead s g)
  untouched : ∀ g, g ∈ u.todo ∨ s.n ≤ g → wbufRead u g = wbufRead s g

section
variable {i : Instr} {f : Byte → Byte × Byte × Byte} {s u v : State} (hmaps : MapsBy (launch i s) i f)
include hmaps

theorem mappedSoFar_launch : MappedSoFar f s (launch i s) := by
  have htodo : ∀ g < s.n, g ∈ (launch i s).todo := fun _ => mem_launch_todo.2
  rw [hmaps.launch_eq] at htodo ⊢
  exact
    { mem := rfl, statMin := rfl, statMax := rfl
      mapped := fun g hg hdone => absurd (htodo g hg) hdone
      untouched := fun _ _ => rfl }

/-- While the command is under way its mapper stays the one of its launch. -/
theorem MappedSoFar.mapsBy (h : MappedSoFar f s u) (hu : Underway i s u) : MapsBy u i f := by
  have hmin : (launch i s).statMin = s.statMin := by rw [hmaps.launch_eq]; rfl
  have hmax : (launch i s).statMax = s.statMax := by rw [hmaps.launch_eq]; rfl
  have hcfg : (launch i s).cfg = s.cfg := by rw [hmaps.launch_eq]; rfl
  exact hmaps.congr hu.smooth (h.statMin.trans hmin.symm) (h.statMax.trans hmax.symm) (hu.cfg.trans hcfg.symm)

theorem MappedSoFar.item {g : Nat} (h : MappedSoFar f s u) (hu : Underway i s u) (hg : g ∈ u.todo)
    (hbody : (frameCmd i).body (workItem s.w g) u = some v) : MappedSoFar f s (itemDone g v) := by
  have hv : v = wbufWrite g (mappedPixel (f (wbufRead s g).c0) (wbufRead s g)) u := by
    rw [← h.untouched g (.inl hg)]
    exact Option.some.inj (hbody.symm.trans ((h.mapsBy hmaps hu).body_eq _))
  have hbelow := hu.todoBelow g hg
  have hother : ∀ a, g ≠ a → wbufRead (itemDone g v) a = wbufRead u a := fun a hne => by
    rw [hv]
    exact wbufRead_write_other u _ hne
  have hown : wbufRead (itemDone g v) g = mappedPixel (f (wbufRead s g).c0) (wbufRead s g) := by
    rw [hv]
    exact wbufRead_write_same u g _
  have htodo : (itemDone g v).todo = u.todo.erase g := by rw [hv]; rfl
  exact
    { mem := by rw [hv]; exact h.mem
      statMin := by rw [hv]; exact h.statMin
      statMax := by rw [hv]; exact h.statMax
      mapped := fun a ha hdone => by
        rw [htodo] at hdone
        rcases not_mem_of_not_mem_erase hdone with rfl | hbefore
        · exact hown
        · have hne : g ≠ a := fun hga => hbefore (hga ▸ hg)
          rw [hother a hne, h.mapped a ha hbefore]
      untouched := fun a ha => by
        rw [htodo, hu.todoNodup.mem_erase_iff] at ha
        have hne : g ≠ a := by
          rcases ha with ⟨hag, -⟩ | ha
          · exact hag.symm
          · omega
        rw [hother a hne, h.untouched a (ha.imp_left And.right)] }

/-- A MAP command, issued and run to its end in any order: every pixel below N is mapped once by the mapper of its
acceptance, and no other pixel and no frame memory changes (R113, R154, R160, R165). -/
theorem Launchable.maps_every_pixel {ks : List Nat} {rest : List Event} (hl : Launchable i s)
    (hlen : ks.length = s.n + 1) (hagenda : s.agenda = issueMoves i ks ++ rest) :
    ∃ t, runsTo (s.n + 2) s t ∧ Completed rest s t ∧
      t.status = { s.status with done := true, stv := if i = .map2 then false else s.status.stv } ∧
      t.mem = s.mem ∧ t.smooth = (launch i s).smooth ∧ t.statMin = s.statMin ∧ t.statMax = s.statMax ∧
      (∀ g < s.n, wbufRead t g = mappedPixel (f (wbufRead s g).c0) (wbufRead s g)) ∧
      (∀ g, s.n ≤ g → wbufRead t g = wbufRead s g) := by
  obtain ⟨u, hrun, hu, hdone, htodo, hrest⟩ := hl.runs_to_end hmaps.footprintAnswers (P := MappedSoFar f s)
    (fun _ _ _ h => { h with }) (fun _ _ _ hu h hg hbody => h.item hmaps hu hg hbody) hlen hagenda
    (mappedSoFar_launch hmaps)
  have hcompleted := hu.completed htodo hrest
  rw [hmaps.finish_eq] at hrun hcompleted
  refine ⟨_, hrun, hcompleted, ?_, hdone.mem, hu.smooth, hdone.statMin, hdone.statMax,
    fun g hg => hdone.mapped g hg (by simp [htodo]), fun g hg => hdone.untouched g (.inr hg)⟩
  rw [complete_status, hu.status, hmaps.launch_eq]
  rfl

end

/-- Settles O24: MAP1 and MAP3 have the same mapper in every state with their parameters. -/
theorem fixedMapsTransformEveryPixel : Obligations.FixedMapsTransformEveryPixel := by
  intro s i f ks rest hcommand hl hlen hagenda
  rcases hcommand with ⟨rfl, rfl⟩ | ⟨rfl, rfl⟩
  · exact hl.maps_every_pixel .map1 hlen hagenda
  · exact hl.maps_every_pixel .map3 hlen hagenda

/-- Settles O25: MAP2's mapper is that of the SMOOTH its acceptance has set. -/
theorem adaptiveMapTransformsEveryPixel : Obligations.AdaptiveMapTransformsEveryPixel := by
  intro s ks rest hl hlen hagenda mix
  exact hl.maps_every_pixel (.map2 (s := launch .map2 s) (mix := mix) rfl) hlen hagenda

end Sys2Proof.Machine
end

section
/-! PROOFS. The family of `42_color_map.md`, second part: the curves of the mapper over exact rationals (R150): the tone
curve (R151), the palette of variant 1 (R152) and the four-band curve (R158). -/

namespace Sys2Proof.Machine

/-! ### Bytes as rationals -/

theorem byteQ_nonneg (y : Byte) : 0 ≤ byteQ y := Nat.cast_nonneg _

theorem byteQ_le (y : Byte) : byteQ y ≤ 255 := by
  have : y.toNat ≤ 255 := by omega
  exact Nat.cast_le.2 this

/-! ### The tone curve -/

/-- On a byte neither bound of the tone curve's clamp acts (R151). -/
theorem tone_eq (y : Byte) : tone y = 40 * byteQ y / 51 + 55 := by
  have hlo := byteQ_nonneg y
  have hhi := byteQ_le y
  rw [tone, clamp, if_neg (by linarith), if_neg (by linarith)]
  ring

theorem tone_bounds (y : Byte) : 55 ≤ tone y ∧ tone y ≤ 255 := by
  have hlo := byteQ_nonneg y
  have hhi := byteQ_le y
  rw [tone_eq]
  constructor <;> linarith

theorem tone_le_of_le {y : Byte} {n : Nat} (h : y.toNat ≤ n) : tone y ≤ 40 * (n : Rat) / 51 + 55 := by
  have hn : byteQ y ≤ n := Nat.cast_le.2 h
  rw [tone_eq]
  linarith

theorem le_tone_of_le {y : Byte} {n : Nat} (h : n ≤ y.toNat) : 40 * (n : Rat) / 51 + 55 ≤ tone y := by
  have hn : (n : Rat) ≤ byteQ y := Nat.cast_le.2 h
  rw [tone_eq]
  linarith

/-- The tone curve rises with the byte, and strictly (R151). -/
theorem tone_lt_iff {y z : Byte} : tone y < tone z ↔ y.toNat < z.toNat := by
  calc tone y < tone z ↔ byteQ y < byteQ z := by
        rw [tone_eq, tone_eq]; constructor <;> intro h <;> linarith
    _ ↔ y.toNat < z.toNat := Nat.cast_lt

theorem tone_255 : tone 255 = 255 := by
  have hbyte : byteQ 255 = 255 := rfl
  rw [tone_eq, hbyte]
  norm_num

/-- Settles O39: the top of the curve is the value at 255, which no other byte has. -/
theorem toneCurveRisesWithinBounds : Obligations.ToneCurveRisesWithinBounds := by
  intro y
  obtain ⟨hlo, hhi⟩ := tone_bounds y
  refine ⟨tone_eq y, hlo, hhi, ⟨fun h => ?_, fun h => ?_⟩, fun z => tone_lt_iff.2⟩
  · have htop : ¬ y.toNat < (255 : Byte).toNat := fun hlt => by
      have := (tone_lt_iff.2 hlt).trans_le (tone_bounds 255).2
      exact this.ne h
    bv_omega
  · rw [h]
    exact tone_255

/-! ### Piecewise linear curves -/

/-- How far `t` lies above `lo`. A curve that is linear in each of its bands and continuous is a sum of such excesses, one
for each boundary, so its growth is that of the excesses. -/
def excess (lo t : Rat) : Rat := max (t - lo) 0

theorem excess_of_le {lo t : Rat} (h : t ≤ lo) : excess lo t = 0 := max_eq_right (sub_nonpos.2 h)

theorem excess_of_ge {lo t : Rat} (h : lo ≤ t) : excess lo t = t - lo := max_eq_left (sub_nonneg.2 h)

/-- The part of `t` between two boundaries is at least 0 and at most their distance. -/
theorem excess_sub_bounds {lo hi : Rat} (h : lo ≤ hi) (t : Rat) :
    0 ≤ excess lo t - excess hi t ∧ excess lo t - excess hi t ≤ hi - lo := by
  rcases le_total t lo with ht | ht
  · rw [excess_of_le ht, excess_of_le (ht.trans h)]
    constructor <;> linarith
  · rw [excess_of_ge ht]
    rcases le_total t hi with ht' | ht'
    · rw [excess_of_le ht']
      constructor <;> linarith
    · rw [excess_of_ge ht']
      constructor <;> linarith

/-- An excess never falls, and rises by at most what `t` does. -/
theorem excess_rise (lo : Rat) {t u : Rat} (h : t ≤ u) :
    0 ≤ excess lo u - excess lo t ∧ excess lo u - excess lo t ≤ u - t := by
  rcases le_total u lo with hu | hu
  · rw [excess_of_le hu, excess_of_le (h.trans hu)]
    constructor <;> linarith
  · rw [excess_of_ge hu]
    rcases le_total t lo with ht | ht
    · rw [excess_of_le ht]
      constructor <;> linarith
    · rw [excess_of_ge ht]
      constructor <;> linarith

/-- The excess over a higher boundary is an excess of the excess over a lower one. -/
theorem excess_excess {lo hi : Rat} (h : lo ≤ hi) (t : Rat) : excess (hi - lo) (excess lo t) = excess hi t := by
  rcases le_total t lo with ht | ht
  · rw [excess_of_le ht, excess_of_le (sub_nonneg.2 h), excess_of_le (ht.trans h)]
  · rw [excess_of_ge ht, excess, excess, sub_sub_sub_cancel_right]

/-- The excess over a higher boundary rises by at most what that over a lower one does. -/
theorem excess_rise_le {lo hi t u : Rat} (h : lo ≤ hi) (htu : t ≤ u) :
    excess hi u - excess hi t ≤ excess lo u - excess lo t := by
  have hle : excess lo t ≤ excess lo u := sub_nonneg.1 (excess_rise lo htu).1
  have hrise := (excess_rise (hi - lo) hle).2
  rwa [excess_excess h, excess_excess h] at hrise

/-! ### The palette of variant 1 -/

/-- Below 70 (R152). -/
theorem palette1_low {t : Rat} (h : t < 70) : k1 t = 0 ∧ r1 t = 0 ∧ g1 t = 90 := by
  have hk : k1 t = 0 := if_pos h
  simp [r1, g1, hk]

/-- From 70 to below 85 (R152). -/
theorem palette1_mid {t : Rat} (hlo : 70 ≤ t) (hhi : t < 85) :
    k1 t = 1 ∧ r1 t = (t - 70) * 4 ∧ g1 t = (t - 70) * (13 / 5) + 90 := by
  have hk : k1 t = 1 := by rw [k1, if_neg hlo.not_gt, if_pos hhi]
  simp [r1, g1, hk]

/-- From 85 on (R152). -/
theorem palette1_high {t : Rat} (h : 85 ≤ t) :
    k1 t = 2 ∧ r1 t = (t - 85) / 170 * 195 + 60 ∧ g1 t = (t - 85) / 170 * 126 + 129 := by
  have hk : k1 t = 2 := by rw [k1, if_neg (by linarith), if_neg h.not_gt]
  simp [r1, g1, hk]

/-- The two channels of variant 1 as sums of excesses: their slopes are 4 and 13/5 between 70 and 85, and 39/34 and 63/85
above (R152). -/
theorem palette1_eq (t : Rat) :
    r1 t = 4 * (excess 70 t - excess 85 t) + 39 / 34 * excess 85 t ∧
      g1 t = 13 / 5 * (excess 70 t - excess 85 t) + 63 / 85 * excess 85 t + 90 := by
  rcases lt_or_ge t 70 with h70 | h70
  · obtain ⟨-, hr, hg⟩ := palette1_low h70
    rw [hr, hg, excess_of_le h70.le, excess_of_le (by linarith)]
    constructor <;> ring
  · rw [excess_of_ge h70]
    rcases lt_or_ge t 85 with h85 | h85
    · obtain ⟨-, hr, hg⟩ := palette1_mid h70 h85
      rw [hr, hg, excess_of_le h85.le]
      constructor <;> ring
    · obtain ⟨-, hr, hg⟩ := palette1_high h85
      rw [hr, hg, excess_of_ge h85]
      constructor <;> ring

/-- Both channels of variant 1 never fall, and rise by at most their slopes between 70 and 85 (R152). -/
theorem palette1_rise {t u : Rat} (h : t ≤ u) :
    (r1 t ≤ r1 u ∧ g1 t ≤ g1 u) ∧ r1 u - r1 t ≤ 4 * (u - t) ∧ g1 u - g1 t ≤ 13 / 5 * (u - t) := by
  obtain ⟨hrt, hgt⟩ := palette1_eq t
  obtain ⟨hru, hgu⟩ := palette1_eq u
  have h70 := (excess_rise 70 h).2
  have h85 := (excess_rise 85 h).1
  have hband := excess_rise_le (lo := 70) (hi := 85) (by norm_num) h
  rw [hrt, hgt, hru, hgu]
  refine ⟨⟨?_, ?_⟩, ?_, ?_⟩ <;> linarith

/-- The branch index of variant 1 on bytes: the tone curve reaches 70 between 19 and 20, and 85 between 38 and 39
(R152). -/
theorem k1_tone (y : Byte) : k1 (tone y) = if y.toNat ≤ 19 then 0 else if y.toNat ≤ 38 then 1 else 2 := by
  split
  · next h19 =>
    have htop := tone_le_of_le h19
    exact (palette1_low (by norm_num at htop; linarith)).1
  · next h19 =>
    have hbottom := le_tone_of_le (not_le.1 h19)
    split
    · next h38 =>
      have htop := tone_le_of_le h38
      exact (palette1_mid (by norm_num at hbottom; linarith) (by norm_num at htop; linarith)).1
    · next h38 =>
      have hbottom := le_tone_of_le (not_le.1 h38)
      exact (palette1_high (by norm_num at hbottom; linarith)).1

/-- Settles O40: the bands by definition, growth and continuity from the sums of excesses, and the branch index by the
bytes at which the tone curve passes 70 and 85. -/
theorem paletteOfVariantOne : Obligations.PaletteOfVariantOne := by
  have hslope : (26 / 10 : Rat) = 13 / 5 := by norm_num
  obtain ⟨-, hr70, hg70⟩ := palette1_mid (t := 70) (by norm_num) (by norm_num)
  obtain ⟨-, hr85, hg85⟩ := palette1_high (t := 85) (by norm_num)
  refine ⟨fun t => ⟨palette1_low, fun hlo hhi => ?_, palette1_high⟩, fun t u h => (palette1_rise h).1,
    fun t u h => (palette1_rise h).2, k1_tone, ?_, ?_, ?_, ?_⟩
  · rw [hslope]
    exact palette1_mid hlo hhi
  · rw [hr70]; norm_num
  · rw [hg70]; norm_num
  · rw [hr85]; norm_num
  · rw [hg85]; norm_num

/-! ### The four-band curve -/

/-- Below 10 (R158). -/
theorem curve2_black {u : Rat} (h : u < 10) : curve2 u = (0, 90, 255) := if_pos h

/-- From 10 to below 30 (R158). -/
theorem curve2_low {u : Rat} (hlo : 10 ≤ u) (hhi : u < 30) : curve2 u = ((u - 10) * 3, (u - 10) * 2 + 90, 255) := by
  rw [curve2, if_neg hlo.not_gt, if_pos hhi]

/-- From 30 to below 230 (R158). -/
theorem curve2_mid {u : Rat} (hlo : 30 ≤ u) (hhi : u < 230) :
    curve2 u = ((u - 30) / 200 * 195 + 60, (u - 30) / 200 * 125 + 130, 255) := by
  rw [curve2, if_neg (by linarith), if_neg hlo.not_gt, if_pos hhi]

/-- From 230 on (R158). -/
theorem curve2_white {u : Rat} (h : 230 ≤ u) : curve2 u = (255, 255, 255) := by
  rw [curve2, if_neg (by linarith), if_neg (by linarith), if_neg h.not_gt]

/-- The four-band curve as sums of excesses: its slopes are 3 and 2 between 10 and 30, and 39/40 and 5/8 between 30 and
230 (R158). -/
theorem curve2_eq (u : Rat) :
    curve2 u = (3 * (excess 10 u - excess 30 u) + 39 / 40 * (excess 30 u - excess 230 u),
      2 * (excess 10 u - excess 30 u) + 5 / 8 * (excess 30 u - excess 230 u) + 90, 255) := by
  rcases lt_or_ge u 10 with h10 | h10
  · rw [curve2_black h10, excess_of_le h10.le, excess_of_le (by linarith), excess_of_le (by linarith)]
    norm_num
  · rw [excess_of_ge h10]
    rcases lt_or_ge u 30 with h30 | h30
    · rw [curve2_low h10 h30, excess_of_le h30.le, excess_of_le (by linarith)]
      ring_nf
    · rw [excess_of_ge h30]
      rcases lt_or_ge u 230 with h230 | h230
      · rw [curve2_mid h30 h230, excess_of_le h230.le]
        ring_nf
      · rw [curve2_white h230, excess_of_ge h230]
        ring_nf

/-- The range of the four-band curve (R166). -/
theorem curve2_bounds (u : Rat) : 0 ≤ (curve2 u).1 ∧ (curve2 u).1 ≤ 255 ∧ 90 ≤ (curve2 u).2.1 ∧
    (curve2 u).2.1 ≤ 255 ∧ (curve2 u).2.2 = 255 := by
  obtain ⟨hlow0, hlow⟩ := excess_sub_bounds (lo := 10) (hi := 30) (by norm_num) u
  obtain ⟨hmid0, hmid⟩ := excess_sub_bounds (lo := 30) (hi := 230) (by norm_num) u
  rw [curve2_eq]
  refine ⟨?_, ?_, ?_, ?_, rfl⟩ <;> dsimp only <;> linarith

/-- The four-band curve never falls, and rises by at most its slopes between 10 and 30 (R158). -/
theorem curve2_rise {u v : Rat} (h : u ≤ v) :
    ((curve2 u).1 ≤ (curve2 v).1 ∧ (curve2 u).2.1 ≤ (curve2 v).2.1) ∧
      (curve2 v).1 - (curve2 u).1 ≤ 3 * (v - u) ∧ (curve2 v).2.1 - (curve2 u).2.1 ≤ 2 * (v - u) := by
  have h10 := (excess_rise 10 h).2
  have hlow := excess_rise_le (lo := 10) (hi := 30) (by norm_num) h
  have hmid := excess_rise_le (lo := 30) (hi := 230) (by norm_num) h
  have h230 := (excess_rise 230 h).1
  rw [curve2_eq u, curve2_eq v]
  refine ⟨⟨?_, ?_⟩, ?_, ?_⟩ <;> dsimp only <;> linarith

/-- Settles O43: the bands by definition, range and growth from the sum of excesses. -/
theorem fourBandCurveIsContinuousAndBounded : Obligations.FourBandCurveIsContinuousAndBounded := by
  refine ⟨fun u => ⟨curve2_black, curve2_low, curve2_mid, curve2_white⟩, curve2_bounds,
    fun u v h => (curve2_rise h).1, fun u v h => (curve2_rise h).2, ?_, ?_, curve2_white le_rfl⟩
  · rw [curve2_low le_rfl (by norm_num)]; norm_num
  · rw [curve2_mid le_rfl (by norm_num)]; norm_num

end Sys2Proof.Machine
end

section
/-! PROOFS. The family of `42_color_map.md`, third part: the adaptive stage of variant 2 (R155 to R161), the dot products
of variant 3 (R162, R163, R166), and the values the spec lists (R153, R164). -/

namespace Sys2Proof.Machine

/-! ### The adaptive stage of variant 2 -/

/-- The blend portion is 2 just where the extremes are equal (R155). -/
theorem mixNew_eq_two_iff {mn mx : Byte} (h : mn.toNat ≤ mx.toNat) : mixNew mn mx = 2 ↔ mx = mn := by
  have hle : byteQ mn ≤ byteQ mx := Nat.cast_le.2 h
  have hmn := byteQ_nonneg mn
  have hmx := byteQ_le mx
  have hbase : 0 ≤ 1 - (byteQ mx - byteQ mn) / 255 := by linarith
  calc mixNew mn mx = 2 ↔ (1 - (byteQ mx - byteQ mn) / 255) ^ 4 = 1 := by
        rw [mixNew]; constructor <;> intro h <;> linarith
    _ ↔ 1 - (byteQ mx - byteQ mn) / 255 = 1 := pow_eq_one_iff_of_nonneg hbase (by decide)
    _ ↔ byteQ mx = byteQ mn := by constructor <;> intro h <;> linarith
    _ ↔ mx = mn := by rw [byteQ, byteQ, Nat.cast_inj, BitVec.toNat_inj]

/-- The blend portion is 1 just where the extremes are 255 apart, so are 0 and 255 (R155). -/
theorem mixNew_eq_one_iff {mn mx : Byte} : mixNew mn mx = 1 ↔ mn = 0 ∧ mx = 255 := by
  calc mixNew mn mx = 1 ↔ (1 - (byteQ mx - byteQ mn) / 255) ^ 4 = 0 := by
        rw [mixNew]; constructor <;> intro h <;> linarith
    _ ↔ 1 - (byteQ mx - byteQ mn) / 255 = 0 := pow_eq_zero_iff (by decide)
    _ ↔ byteQ mx = byteQ mn + (255 : Nat) := by push_cast; constructor <;> intro h <;> linarith
    _ ↔ mn = 0 ∧ mx = 255 := by
        rw [byteQ, byteQ, ← Nat.cast_add, Nat.cast_inj]
        bv_omega

/-- Settles O42, from the fourth power of a number in [0, 1]. -/
theorem blendPortionLiesInOneToTwo : Obligations.BlendPortionLiesInOneToTwo := by
  intro mn mx h
  obtain ⟨hlo, hhi⟩ := mixNew_bounds h
  refine ⟨rfl, hlo, hhi, mixNew_eq_two_iff h, mixNew_eq_one_iff.trans ?_⟩
  bv_omega

/-- A smoothed portion is 1 just where the new one is, and the previous one if there is any (R156, R161). -/
theorem smoothMix_eq_one_iff {prev : Option Rat} {new : Rat} (hprev : ∀ p, prev = some p → 1 ≤ p)
    (hnew : 1 ≤ new) : smoothMix prev new = 1 ↔ new = 1 ∧ (prev = none ∨ prev = some 1) := by
  rcases prev with _ | p
  · simp [smoothMix]
  · have hp := hprev p rfl
    rw [smoothMix, Option.some_inj]
    constructor
    · intro h
      exact ⟨by linarith, .inr (by linarith)⟩
    · rintro ⟨rfl, h | rfl⟩
      · cases h
      · norm_num

/-- With extremes 0 and 255 and portion 1 the equalisation gives back the luminance (R157, R161). -/
theorem equalise_full_range (y : Byte) : equalise 1 0 255 y = byteQ y := by
  have hmn : byteQ 0 = 0 := rfl
  have hmx : byteQ 255 = 255 := rfl
  rw [equalise, if_pos (by norm_num), hmn, hmx, divQ, if_neg (by norm_num)]
  ring

/-- Settles O44: the equalisation is taken just where the smoothed portion is 1, and is then that of the full range. -/
theorem adaptiveStageNeverChangesAPixel : Obligations.AdaptiveStageNeverChangesAPixel := by
  intro prev mn mx y h hprev mix
  obtain ⟨hlo, hhi⟩ : 1 ≤ mix ∧ mix ≤ 2 := smoothMix_bounds hprev (mixNew_bounds h)
  have htaken : 0 < mix ∧ mix ≤ 1 ↔ mix = 1 :=
    ⟨fun hmix => le_antisymm hmix.2 hlo, fun hmix => by rw [hmix]; norm_num⟩
  have hone : mix = 1 ↔ mn = 0 ∧ mx = 255 ∧ (prev = none ∨ prev = some 1) := by
    rw [smoothMix_eq_one_iff (fun p hp => (hprev p hp).1) (mixNew_bounds h).1, mixNew_eq_one_iff, and_assoc]
  have hequalise : equalise mix mn mx y = byteQ y := by
    by_cases hmix : mix = 1
    · obtain ⟨rfl, rfl, -⟩ := hone.1 hmix
      rw [hmix, equalise_full_range]
    · exact if_neg (mt htaken.1 hmix)
  refine ⟨hlo, hhi, htaken.trans hone, hequalise, ?_⟩
  rw [v2, hequalise]
  rfl

/-! ### Variant 3 -/

theorem r1_nonneg (t : Rat) : 0 ≤ r1 t := by
  have h85 := (excess_sub_bounds (lo := 70) (hi := 85) (by norm_num) t).1
  have hpos : 0 ≤ excess 85 t := le_max_right _ _
  rw [(palette1_eq t).1]
  linarith

/-- The red channel of variant 1 stays below its argument, which it meets at 255 (R152). -/
theorem r1_le_self {t : Rat} (hlo : 0 ≤ t) (hhi : t ≤ 255) : r1 t ≤ t := by
  rcases lt_or_ge t 70 with h70 | h70
  · rw [(palette1_low h70).2.1]
    exact hlo
  · rcases lt_or_ge t 85 with h85 | h85
    · rw [(palette1_mid h70 h85).2.1]
      linarith
    · rw [(palette1_high h85).2.1]
      linarith

/-- From 70 on the red channel of variant 1 lies above the line of its last slope through (70, 0) (R152). -/
theorem le_r1 {t : Rat} (h : 70 ≤ t) : 39 / 34 * (t - 70) ≤ r1 t := by
  have hband := (excess_sub_bounds (lo := 70) (hi := 85) (by norm_num) t).1
  rw [(palette1_eq t).1, ← excess_of_ge h]
  linarith

/-- The parameter `V3_B` by branch (R162). -/
theorem v3b_eq (c : Config) (k : Fin 3) : v3b c k = if k = 0 then c.v3b0 else if k = 1 then c.v3b1 else c.v3b2 := by
  match k with
  | 0 => rfl
  | 1 => rfl
  | 2 => rfl

/-- On bytes the red and the green component keep the third dot product above its bound: the least value is that of byte
19, the last before red sets in (R163, R166). -/
theorem red_minus_tone_ge (y : Byte) : -(35.99951 : Rat) ≤ 0.615 * r1 (tone y) - 0.515 * tone y := by
  rcases Nat.lt_or_ge 19 y.toNat with h20 | h19
  · have hbottom := le_tone_of_le h20
    norm_num at hbottom
    have hred := le_r1 (t := tone y) (by linarith)
    linarith
  · have htop := tone_le_of_le h19
    have hred := r1_nonneg (tone y)
    norm_num at htop
    linarith

/-- Settles O45: the dot products are linear in red, green and blue, so their bounds come from those of the tone curve,
of red and of a byte. -/
theorem matrixVariantStaysInRange : Obligations.MatrixVariantStaysInRange := by
  refine ⟨by norm_num [dot3], ?_⟩
  intro c y b d
  have hblue : byteQ (v3b c (k1 (tone y))) = b := congrArg byteQ (v3b_eq c _)
  have hd : d = (0.299 * r1 (tone y) + 0.587 * tone y + 0.114 * b,
      -0.147 * r1 (tone y) - 0.289 * tone y + 0.436 * b + 128,
      0.615 * r1 (tone y) - 0.515 * tone y - 0.100 * b + 128) := by
    show dot3 (r1 (tone y), tone y, byteQ (v3b c (k1 (tone y)))) = _
    rw [hblue, dot3]
    norm_num
  have hb0 : 0 ≤ b := byteQ_nonneg _
  have hb : b ≤ 255 := byteQ_le _
  obtain ⟨ht0, ht⟩ := tone_bounds y
  have hr0 := r1_nonneg (tone y)
  have hr := r1_le_self (by linarith) ht
  have hV := red_minus_tone_ge y
  refine ⟨hd, ?_⟩
  rw [hd]
  norm_num at hV ⊢
  refine ⟨?_, ?_, ?_, ?_, ?_, ?_⟩ <;> linarith

/-! ### The values the spec lists -/

/-- Settles O41, by evaluation of the listed bytes over exact rationals. -/
theorem listedMapperValues : Obligations.ListedMapperValues := by
  unfold Obligations.ListedMapperValues
  decide +kernel

end Sys2Proof.Machine
end

section
/-! PROOFS. The family of `43_kernel.md`, first part: KERN3 run to its end (R180, R181), and the memory that PACK, MAP3
and UNPACKP leave, which is KERN3's byte for byte (R180). -/

namespace Sys2Proof.Machine

/-- The bytes that KERN3 writes for a work-item: variant 3 of its luma sample (R180). -/
theorem planeTriple_kern3 (s : State) (g : Nat) :
    planeTriple .kern3 (workItem s.w g) s = v3 s.cfg (lumaSample s g) := rfl

/-- Settles O28: KERN3 writes `planeTriple`, which is variant 3 of the luma sample of the work-item. -/
theorem kern3WritesVariant3 : Obligations.Kern3WritesVariant3 := by
  intro s ks rest hl hanswers hlen hagenda
  obtain ⟨t, hrun, hcompleted, hstatus, hwbuf, hsmooth, hmin, hmax, hluma, hchroma, houtside⟩ :=
    hl.writes_planes (.inr (.inr rfl)) hanswers hlen hagenda
  refine ⟨t, hrun, hcompleted, hstatus, hwbuf, hsmooth, hmin, hmax, fun r hr c hc => ?_, fun r hr c hc => ?_, houtside⟩
  · rw [hluma r hr c hc, planeTriple_kern3, lumaSample_at hc]
  · obtain ⟨-, hcol, -⟩ := eachChromaSampleHasOneRepresentative s.w s.h r c hr hc
    rw [← lumaSample_at hcol, ← planeTriple_kern3]
    exact hchroma r hr c hc

/-! ### Every address of a write footprint is written -/

/-- Every address of the destination planes is that of a work-item's byte: luma of the pixel's own, chroma of the block's
representative (R132, R181). -/
theorem exists_planeBytes {s : State} {a : Nat} (ha : a ∈ (dstPlanes s).flatten) (o : Nat → Byte × Byte × Byte) :
    ∃ g < s.n, ∃ p ∈ planeBytes (workItem s.w g) (o g) s, p.1 = a := by
  have hplanes : a ∈ planeRegion s.regs.dstY s.h s.w ∨
      a ∈ planeRegion s.regs.dstA s.ch s.cw ∨ a ∈ planeRegion s.regs.dstB s.ch s.cw := by
    simpa [dstPlanes] using ha
  have hrepresentative : ∀ {r c}, r < s.ch → c < s.cw → ∃ g < s.n, (workItem s.w g).rep = true ∧
      (workItem s.w g).crow = r ∧ (workItem s.w g).ccol = c := fun hr hc => by
    obtain ⟨-, -, hiff⟩ := eachChromaSampleHasOneRepresentative s.w s.h _ _ hr hc
    exact ⟨_, (hiff _).2 rfl⟩
  rcases hplanes with hY | hA | hB
  · obtain ⟨r, hr, c, hc, rfl⟩ := mem_planeRegion.1 hY
    obtain ⟨hrow, hcol⟩ := workItem_at (r := r) hc
    exact ⟨_, index_lt hr hc, _, mem_planeBytes.2 (.inl rfl), by rw [hrow, hcol]⟩
  · obtain ⟨r, hr, c, hc, rfl⟩ := mem_planeRegion.1 hA
    obtain ⟨g, hg, hrep, rfl, rfl⟩ := hrepresentative hr hc
    exact ⟨g, hg, _, mem_planeBytes.2 (.inr ⟨hrep, .inl rfl⟩), rfl⟩
  · obtain ⟨r, hr, c, hc, rfl⟩ := mem_planeRegion.1 hB
    obtain ⟨g, hg, hrep, rfl, rfl⟩ := hrepresentative hr hc
    exact ⟨g, hg, _, mem_planeBytes.2 (.inr ⟨hrep, .inr rfl⟩), rfl⟩

/-- Every address of a command's write footprint is that of a byte of one of its work-items (R72). -/
theorem exists_itemBytes {i : Instr} {s : State} {a : Nat} (ha : a ∈ writeFootprint i s) :
    ∃ g < s.n, ∃ p ∈ itemBytes i (workItem s.w g) s, p.1 = a := by
  cases i
  case unpackp | unpackn | kern3 => exact exists_planeBytes ha fun g => planeTriple _ (workItem s.w g) s
  case emit =>
    have hpixel : a ∈ pixelRegion s.regs.dstI s.h s.w := by simpa [writeFootprint, writeRegions] using ha
    obtain ⟨r, hr, c, hc, k, hk, rfl⟩ := mem_pixelRegion.1 hpixel
    obtain ⟨hrow, hcol⟩ := workItem_at (r := r) hc
    exact ⟨_, index_lt hr hc, _, List.mem_map.2 ⟨k, List.mem_range.2 hk, rfl⟩, by rw [hrow, hcol]⟩
  all_goals cases ha

/-! ### One command after another -/

/-- A command that completes leaves the geometry as it was (R95). -/
theorem Completed.w_eq {rest : List Event} {s t : State} (h : Completed rest s t) : t.w = s.w := by
  rw [State.w, h.regs, State.w]

theorem Completed.n_eq {rest : List Event} {s t : State} (h : Completed rest s t) : t.n = s.n := by
  rw [State.n, State.w, State.h, h.regs]; rfl

/-- What two commands leave that complete one after the other. -/
theorem Completed.trans {rest rest' : List Event} {s t u : State} (h : Completed rest s t) (h' : Completed rest' t u) :
    Completed rest' s u where
  idle := h'.idle
  gid := h'.gid.trans h.n_eq
  todo := h'.todo
  regs := h'.regs.trans h.regs
  cfg := h'.cfg.trans h.cfg
  rdata := h'.rdata.trans h.rdata
  mdata := h'.mdata.trans h.mdata
  freeCtr := h'.freeCtr.trans h.freeCtr
  agenda := h'.agenda

/-- After PACK, and after what maps its pixels, a command that reads the working buffer alone may be launched if its
planes permit it (R111, R73, R68). -/
theorem Completed.launchable {rest : List Event} {i : Instr} {s t : State} (h : Completed rest s t)
    (hstatus : t.status = { s.status with done := true, wbv := true }) (hframe : isFrame i = true)
    (hstv : needsStv i = false) (herr : s.status.err = none) (hready : s.status.ready = true)
    (hstrides : stridesOk i s = true) (hoverlap : noOverlap i s = true) (hplain : plainFootprint i s = true) :
    Launchable i t where
  frame := hframe
  idle := h.idle
  noErr := by rw [hstatus]; exact herr
  ready := by rw [hstatus]; exact hready
  wbv _ := by rw [hstatus]
  stv hneeds := by cases hstv.symm.trans hneeds
  strides := (stridesOk_congr h.regs i).trans hstrides
  overlap := (noOverlap_congr h.regs i).trans hoverlap
  plain := (plainFootprint_congr h.regs h.cfg i).trans hplain

/-! ### PACK, then MAP3 -/

/-- PACK and then MAP3, each run to its end in any order: every pixel holds variant 3 of its luma sample, and MEM is as it
was (R131, R165). -/
theorem Launchable.pack_then_map3 {s : State} {ks ks' : List Nat} {rest : List Event} (hl : Launchable .pack s)
    (hanswers : footprintAnswers .pack s = true) (hlen : ks.length = s.n + 1) (hlen' : ks'.length = s.n + 1)
    (hagenda : s.agenda = issueMoves .pack ks ++ (issueMoves .map3 ks' ++ rest)) :
    ∃ t, runsTo (2 * (s.n + 2)) s t ∧ Completed rest s t ∧
      t.status = { s.status with done := true, wbv := true } ∧ t.mem = s.mem ∧
      ∀ g < s.n, wbufRead t g = mappedPixel (v3 s.cfg (lumaSample s g)) (packedPixel s (workItem s.w g)) := by
  obtain ⟨t, hrun, hpacked, hstatus, hmem, -, -, -, hpixels, -⟩ :=
    packFillsTheWorkingBuffer s ks _ hl hanswers hlen hagenda
  have hlt : Launchable .map3 t := hpacked.launchable hstatus rfl rfl hl.noErr hl.ready rfl rfl rfl
  obtain ⟨u, hrun', hmapped, hstatus', hmem', -, -, -, hpixels', -⟩ :=
    hlt.maps_every_pixel .map3 (by rw [hpacked.n_eq, hlen']) hpacked.agenda
  rw [hpacked.n_eq] at hrun' hpixels'
  refine ⟨u, by rw [Nat.two_mul]; exact runsTo_add hrun hrun', hpacked.trans hmapped, by rw [hstatus', hstatus]; rfl,
    hmem'.trans hmem, fun g hg => ?_⟩
  obtain ⟨hrow, hcol, -⟩ := workItem_in_frame hg
  have hpixel : wbufRead t g = packedPixel s (workItem s.w g) := by
    have h := wbufRead_of_sparseFind (hpixels _ hrow _ hcol)
    rwa [← workItem_index s.w g] at h
  have hcfg : (launch .map3 t).cfg = s.cfg := hpacked.cfg
  rw [hpixels' g hg, hpixel, hcfg]
  rfl

/-! ### PACK, MAP3, UNPACKP -/

section
variable {s : State} (hl : Launchable .kern3 s)
include hl

/-- KERN3 and UNPACKP write the same planes, so that a launch of KERN3 asks all of them that one of UNPACKP asks. -/
theorem Launchable.kern3_permits_unpackp :
    stridesOk .unpackp s = true ∧ noOverlap .unpackp s = true ∧ plainFootprint .unpackp s = true := by
  obtain ⟨hnodup, -, -⟩ := noOverlap_iff.1 hl.overlap
  have hstrides := hl.strides
  have hplain := hl.plain
  rw [stridesOk, strideNeeds, List.all_cons, Bool.and_eq_true] at hstrides
  rw [plainFootprint, List.all_append, Bool.and_eq_true] at hplain
  obtain ⟨-, hstrides⟩ := hstrides
  obtain ⟨-, hplain⟩ := hplain
  exact ⟨hstrides, noOverlap_iff.2 ⟨hnodup, fun r hr => absurd hr List.not_mem_nil, fun a _ => List.not_mem_nil⟩, hplain⟩

omit hl in
theorem footprintAnswers_unpackp_of_kern3 (hanswers : footprintAnswers .kern3 s = true) :
    footprintAnswers .unpackp s = true := by
  rw [footprintAnswers, Bool.and_eq_true] at hanswers ⊢
  exact ⟨rfl, hanswers.2⟩

/-- PACK, MAP3 and UNPACKP, each run to its end in any order, leave the bytes of KERN3's work-items in MEM, and every
other byte as it was (R180). -/
theorem Launchable.pack_map3_unpackp {ks1 ks2 ks3 : List Nat} (hpack : Launchable .pack s)
    (hanswers : footprintAnswers .kern3 s = true) (hanswers' : footprintAnswers .pack s = true)
    (hlen1 : ks1.length = s.n + 1) (hlen2 : ks2.length = s.n + 1) (hlen3 : ks3.length = s.n + 1)
    (hagenda : s.agenda = issueMoves .pack ks1 ++ (issueMoves .map3 ks2 ++ issueMoves .unpackp ks3)) :
    ∃ u, runsTo (3 * (s.n + 2)) s u ∧
      (∀ g < s.n, ∀ p ∈ itemBytes .kern3 (workItem s.w g) s, u.mem.read p.1 = p.2) ∧
      (∀ a, a ∉ writeFootprint .kern3 s → u.mem.read a = s.mem.read a) := by
  obtain ⟨t, hrun, ht, hstatus, hmem, hpixels⟩ := hpack.pack_then_map3 hanswers' hlen1 hlen2 hagenda
  obtain ⟨hstrides, hoverlap, hplain⟩ := hl.kern3_permits_unpackp
  have hlt : Launchable .unpackp t :=
    ht.launchable hstatus rfl rfl hl.noErr hl.ready hstrides hoverlap hplain
  have hanswersU : footprintAnswers .unpackp t = true :=
    (footprintAnswers_congr ht.regs ht.cfg _).trans (footprintAnswers_unpackp_of_kern3 hanswers)
  obtain ⟨u, hrun', -, -, -, -, -, -, hwritten, houtside⟩ :=
    hlt.writes_footprint (rest := []) rfl hanswersU (by rw [ht.n_eq, hlen3])
      (by rw [ht.agenda, List.append_nil])
  rw [ht.n_eq] at hrun' hwritten
  rw [ht.w_eq] at hwritten
  have hbytes : ∀ g < s.n, itemBytes .unpackp (workItem s.w g) t = itemBytes .kern3 (workItem s.w g) s := by
    intro g hg
    have htriple : planeTriple .unpackp (workItem s.w g) t = v3 s.cfg (lumaSample s g) := by
      have hpixel : wbufRead t (workItem s.w g).gid = _ := hpixels g hg
      rw [planeTriple, if_neg (by decide), if_neg (by decide), hpixel]
      rfl
    rw [itemBytes, itemBytes, htriple, planeTriple_kern3, planeBytes, planeBytes, ht.regs]
  refine ⟨u, ?_, fun g hg => hbytes g hg ▸ hwritten g hg, fun a ha => ?_⟩
  · rw [show 3 * (s.n + 2) = 2 * (s.n + 2) + (s.n + 2) by omega]
    exact runsTo_add hrun hrun'
  · rw [houtside a (writeFootprint_congr ht.regs .unpackp ▸ ha), hmem]

end

/-- Settles O30: the two runs leave the same byte at every address that a work-item of KERN3 writes, and no other address
changes in either. -/
theorem kern3EqualsPackMap3Unpackp : Obligations.Kern3EqualsPackMap3Unpackp := by
  intro s ks ks1 ks2 ks3 hkern3 hpack hanswers hanswers' hlen hlen1 hlen2 hlen3
  have hkern3' : ∀ moves, Launchable .kern3 { s with agenda := moves } := fun _ => { hkern3 with }
  have hpack' : ∀ moves, Launchable .pack { s with agenda := moves } := fun _ => { hpack with }
  obtain ⟨t, hrun, -, -, -, -, -, -, hwritten, houtside⟩ :=
    (hkern3' (issueMoves .kern3 ks)).writes_footprint (rest := []) rfl hanswers hlen (List.append_nil _).symm
  obtain ⟨u, hrun', hwritten', houtside'⟩ :=
    (hkern3' (issueMoves .pack ks1 ++ issueMoves .map3 ks2 ++ issueMoves .unpackp ks3)).pack_map3_unpackp (hpack' _)
      hanswers hanswers' hlen1 hlen2 hlen3 (List.append_assoc ..)
  refine ⟨t, u, hrun, hrun', fun a => ?_⟩
  by_cases ha : a ∈ writeFootprint .kern3 s
  · obtain ⟨g, hg, p, hp, rfl⟩ := exists_itemBytes ha
    rw [hwritten g hg p hp, hwritten' g hg p hp]
  · rw [houtside a ha, houtside' a ha]

end Sys2Proof.Machine
end

section
/-! PROOFS. The family of `43_kernel.md`, second part: the engine and the order of the work-items make no difference to
the final state of a frame command (R74, R112, R182). What has held of a command's work-items when all of them have
completed determines the data they write, and the rest of the final state is fixed by the launch. -/

namespace Sys2Proof.Machine

/-! ### What the completed work-items of a command leave, for each command -/

/-- The working buffer after some work-items of a command that writes its own pixel: theirs are listed, and outside the
frame it is as it was (R39). -/
structure ListedSoFar (s u : State) : Prop where
  listed : ∀ g < s.n, g ∉ u.todo → (sparseFind u.wbuf g).isSome = true
  beyond : ∀ g, s.n ≤ g → sparseFind u.wbuf g = sparseFind s.wbuf g

/-- The mapper of a MAP command that is launched in `s` (R154, R160, R165). -/
def launchMapper (i : Instr) (s : State) : Byte → Byte × Byte × Byte :=
  match i with
  | .map1 => v1
  | .map2 => v2 (smoothMix s.smooth (mixNew s.statMin s.statMax)) s.statMin s.statMax
  | .map3 | .nop | .init | .reset | .reduce | .pack | .unpackp | .unpackn | .emit | .kern3 => v3 s.cfg

/-- What holds of the data when some work-items of the frame command `i`, launched in `s`, have completed (R130 to R134,
R154, R160, R165, R180). -/
def DataSoFar (i : Instr) (s u : State) : Prop :=
  match i with
  | .reduce => ReducedSoFar s u
  | .pack => PackedSoFar s u
  | .map1 | .map2 | .map3 => MappedSoFar (launchMapper i s) s u ∧ ListedSoFar s u
  | .unpackp | .unpackn | .emit | .kern3 => WrittenSoFar i s u
  | .nop | .init | .reset => False

theorem listedSoFar_launch {i : Instr} {s : State} (hwbuf : (launch i s).wbuf = s.wbuf) : ListedSoFar s (launch i s) where
  listed _ hg hdone := absurd (mem_launch_todo.2 hg) hdone
  beyond _ _ := by rw [hwbuf]

/-- The commands that map the pixels of the working buffer, with the mapper of their launch. -/
theorem mapsBy_launch {i : Instr} (hi : i = .map1 ∨ i = .map2 ∨ i = .map3) (s : State) :
    MapsBy (launch i s) i (launchMapper i s) := by
  rcases hi with rfl | rfl | rfl
  · exact .map1
  · exact .map2 (s := launch .map2 s) rfl
  · exact .map3 (s := launch .map3 s)

theorem dataSoFar_launch {i : Instr} (hi : isFrame i = true) (s : State) : DataSoFar i s (launch i s) := by
  cases i
  case nop | init | reset => cases hi
  case reduce => exact reducedSoFar_launch s
  case pack => exact packedSoFar_launch s
  case map1 | map2 | map3 => exact ⟨mappedSoFar_launch (mapsBy_launch (by simp) s), listedSoFar_launch rfl⟩
  case unpackp | unpackn | emit | kern3 => exact writtenSoFar_launch rfl s

/-- A work-item that writes its own pixel lists it, and drops none. -/
theorem ListedSoFar.item {s u : State} {g : Nat} (h : ListedSoFar s u) (hg : g ∈ u.todo) (hbelow : g < s.n) (p : Pixel) :
    ListedSoFar s (itemDone g (wbufWrite g p u)) where
  listed a ha hdone := by
    rw [itemDone_wbuf, wbufWrite_wbuf]
    rcases not_mem_of_not_mem_erase hdone with rfl | hbefore
    · rw [sparseFind_insert_same]; rfl
    · exact isSome_sparseFind_insert g p (h.listed a ha hbefore)
  beyond a ha := by
    rw [itemDone_wbuf, wbufWrite_wbuf, sparseFind_insert_other _ _ (by omega), h.beyond a ha]

/-- A completed work-item of a MAP command keeps what its work-items leave. -/
theorem mappedSoFar_and_listedSoFar_item {i : Instr} (hi : i = .map1 ∨ i = .map2 ∨ i = .map3) {s u v : State} {g : Nat}
    (hmapped : MappedSoFar (launchMapper i s) s u) (hlisted : ListedSoFar s u) (hu : Underway i s u) (hg : g ∈ u.todo)
    (hbody : (frameCmd i).body (workItem s.w g) u = some v) :
    MappedSoFar (launchMapper i s) s (itemDone g v) ∧ ListedSoFar s (itemDone g v) := by
  have hmaps := mapsBy_launch hi s
  refine ⟨hmapped.item hmaps hu hg hbody, ?_⟩
  obtain rfl := Option.some.inj (((hmapped.mapsBy hmaps hu).body_eq _).symm.trans hbody)
  exact hlisted.item hg (hu.todoBelow g hg) _

theorem DataSoFar.item {i : Instr} {s u v : State} {g : Nat} (h : DataSoFar i s u) (hoverlap : noOverlap i s = true)
    (hu : Underway i s u) (hg : g ∈ u.todo) (hbody : (frameCmd i).body (workItem s.w g) u = some v) :
    DataSoFar i s (itemDone g v) := by
  cases i
  case nop | init | reset => cases h
  case reduce => exact ReducedSoFar.item h hu hg hbody
  case pack => exact PackedSoFar.item h hu hg hbody
  case map1 | map2 | map3 => exact mappedSoFar_and_listedSoFar_item (by simp) h.1 h.2 hu hg hbody
  case unpackp | unpackn | emit | kern3 => exact WrittenSoFar.item h hu hoverlap rfl hg hbody

/-- Moves taken and choices made are no data. -/
theorem DataSoFar.with_moves {i : Instr} {s u : State} (h : DataSoFar i s u) (k : Nat) (l : List Event) :
    DataSoFar i s { u with pick := k, agenda := l } := by
  cases i
  case nop | init | reset => cases h
  case reduce => exact { (h : ReducedSoFar s u) with }
  case pack => exact { (h : PackedSoFar s u) with }
  case map1 | map2 | map3 => exact ⟨{ h.1 with }, { h.2 with }⟩
  case unpackp | unpackn | emit | kern3 => exact { (h : WrittenSoFar _ s u) with }

/-! ### It determines the data -/

/-- Two states hold the same data: frame memory, working buffer and statistics. -/
structure SameData (u u' : State) : Prop where
  mem : u.mem = u'.mem
  wbuf : u.wbuf = u'.wbuf
  statMin : u.statMin = u'.statMin
  statMax : u.statMax = u'.statMax

section
variable {s u u' : State} (htodo : u.todo = []) (htodo' : u'.todo = [])
include htodo htodo'

/-- The extremes of the samples are what they are in every order (R130). -/
theorem ReducedSoFar.same (h : ReducedSoFar s u) (h' : ReducedSoFar s u') : SameData u u' := by
  have hstats : u.statMin = u'.statMin ∧ u.statMax = u'.statMax := by
    rcases Nat.eq_zero_or_pos s.n with hn | hn
    · have hnone : ∀ {y : Byte}, ¬ ∃ g < s.n, y = lumaSample s g := fun ⟨g, hg, _⟩ => by omega
      rw [h.minTaken.resolve_right hnone, h'.minTaken.resolve_right hnone, h.maxTaken.resolve_right hnone,
        h'.maxTaken.resolve_right hnone]
      exact ⟨rfl, rfl⟩
    · obtain ⟨⟨a, ha, hmin⟩, b, hb, hmax⟩ := h.attained htodo hn
      obtain ⟨⟨a', ha', hmin'⟩, b', hb', hmax'⟩ := h'.attained htodo' hn
      have hbounds : ∀ g < s.n, _ := fun g hg => h.bounds g hg (by simp [htodo])
      have hbounds' : ∀ g < s.n, _ := fun g hg => h'.bounds g hg (by simp [htodo'])
      constructor <;> refine BitVec.eq_of_toNat_eq (Nat.le_antisymm ?_ ?_)
      · rw [hmin']; exact (hbounds a' ha').1
      · rw [hmin]; exact (hbounds' a ha).1
      · rw [hmax]; exact (hbounds' b hb).2
      · rw [hmax']; exact (hbounds b' hb').2
  exact ⟨h.mem.trans h'.mem.symm, h.wbuf.trans h'.wbuf.symm, hstats.1, hstats.2⟩

/-- Working buffers in canonical form that hold the same pixels are the same (R39). -/
theorem PackedSoFar.same (hrising : sparseRising none u.wbuf = true) (hrising' : sparseRising none u'.wbuf = true)
    (h : PackedSoFar s u) (h' : PackedSoFar s u') : SameData u u' where
  mem := h.mem.trans h'.mem.symm
  wbuf := by
    refine sparse_ext none hrising hrising' fun g => ?_
    rcases Nat.lt_or_ge g s.n with hg | hg
    · rw [h.packed g hg (by simp [htodo]), h'.packed g hg (by simp [htodo'])]
    · rw [h.beyond g hg, h'.beyond g hg]
  statMin := h.statMin.trans h'.statMin.symm
  statMax := h.statMax.trans h'.statMax.symm

omit htodo htodo' in
/-- A listed pixel is the one that is read. -/
theorem sparseFind_eq_some_wbufRead {g : Nat} (h : (sparseFind u.wbuf g).isSome = true) :
    sparseFind u.wbuf g = some (wbufRead u g) := by
  obtain ⟨p, hp⟩ := Option.isSome_iff_exists.1 h
  rw [hp, wbufRead_of_sparseFind hp]

theorem MappedSoFar.same {f : Byte → Byte × Byte × Byte} (hrising : sparseRising none u.wbuf = true)
    (hrising' : sparseRising none u'.wbuf = true) (h : MappedSoFar f s u) (h' : MappedSoFar f s u')
    (hl : ListedSoFar s u) (hl' : ListedSoFar s u') : SameData u u' where
  mem := h.mem.trans h'.mem.symm
  wbuf := by
    refine sparse_ext none hrising hrising' fun g => ?_
    rcases Nat.lt_or_ge g s.n with hg | hg
    · have hdone : g ∉ u.todo := by simp [htodo]
      have hdone' : g ∉ u'.todo := by simp [htodo']
      rw [sparseFind_eq_some_wbufRead (hl.listed g hg hdone), sparseFind_eq_some_wbufRead (hl'.listed g hg hdone'),
        h.mapped g hg hdone, h'.mapped g hg hdone']
    · rw [hl.beyond g hg, hl'.beyond g hg]
  statMin := h.statMin.trans h'.statMin.symm
  statMax := h.statMax.trans h'.statMax.symm

/-- Frame memories in canonical form that hold the bytes of every work-item, and elsewhere what they held at the launch,
are the same (R72). -/
theorem WrittenSoFar.same {i : Instr} (hmem : u.mem.wf = true) (hmem' : u'.mem.wf = true) (h : WrittenSoFar i s u)
    (h' : WrittenSoFar i s u') : SameData u u' where
  mem := by
    refine Memory.ext_read hmem hmem' fun a => ?_
    by_cases ha : a ∈ writeFootprint i s
    · obtain ⟨g, hg, p, hp, rfl⟩ := exists_itemBytes ha
      rw [h.written g hg (by simp [htodo]) p hp, h'.written g hg (by simp [htodo']) p hp]
    · rw [h.outside a ha, h'.outside a ha]
  wbuf := h.wbuf.trans h'.wbuf.symm
  statMin := h.statMin.trans h'.statMin.symm
  statMax := h.statMax.trans h'.statMax.symm

end

/-! ### A run of a frame command, from canonical data -/

/-- What holds when some work-items of the frame command `i`, launched in `s`, have completed: the data is in canonical
form, and is what the work-items leave. -/
structure RanSoFar (i : Instr) (s u : State) : Prop where
  memWf : u.mem.wf = true
  wbufRising : sparseRising none u.wbuf = true
  data : DataSoFar i s u

/-- When all work-items have completed, the data is determined. -/
theorem RanSoFar.same {i : Instr} {s u u' : State} (h : RanSoFar i s u) (h' : RanSoFar i s u') (htodo : u.todo = [])
    (htodo' : u'.todo = []) : SameData u u' := by
  have hdata := h.data
  have hdata' := h'.data
  cases i
  case nop | init | reset => cases hdata
  case reduce => exact ReducedSoFar.same htodo htodo' hdata hdata'
  case pack => exact PackedSoFar.same htodo htodo' h.wbufRising h'.wbufRising hdata hdata'
  case map1 | map2 | map3 =>
    exact MappedSoFar.same htodo htodo' h.wbufRising h'.wbufRising hdata.1 hdata'.1 hdata.2 hdata'.2
  case unpackp | unpackn | emit | kern3 => exact WrittenSoFar.same htodo htodo' h.memWf h'.memWf hdata hdata'

theorem ranSoFar_launch {i : Instr} {s : State} (hi : isFrame i = true) (hmem : s.mem.wf = true)
    (hwbuf : sparseRising none s.wbuf = true) : RanSoFar i s (launch i s) where
  memWf := by rw [launch, frameCmd_setup]; exact hmem
  wbufRising := by rw [launch, frameCmd_setup]; exact hwbuf
  data := dataSoFar_launch hi s

theorem RanSoFar.item {i : Instr} {s u v : State} {g : Nat} (h : RanSoFar i s u) (hoverlap : noOverlap i s = true)
    (hu : Underway i s u) (hg : g ∈ u.todo) (hbody : (frameCmd i).body (workItem s.w g) u = some v) :
    RanSoFar i s (itemDone g v) :=
  have heffect := frameCmd_body_effect hbody
  { memWf := heffect.memWf h.memWf
    wbufRising := heffect.wbufRising h.wbufRising
    data := h.data.item hoverlap hu hg hbody }

/-! ### The final state -/

/-- The state `s` with the engine chosen and the coming moves given (R29). -/
def State.withEngine (s : State) (par : Bool) (moves : List Event) : State :=
  { s with regs := { s.regs with engine := par }, agenda := moves }

/-- Neither the choice of the engine nor the coming moves matter for what the work-items leave. -/
theorem DataSoFar.of_withEngine {i : Instr} {s u : State} {par : Bool} {moves : List Event}
    (h : DataSoFar i (s.withEngine par moves) u) : DataSoFar i s u := by
  cases i
  case nop | init | reset => cases h
  case reduce => exact { (h : ReducedSoFar _ u) with }
  case pack => exact { (h : PackedSoFar _ u) with }
  case map1 | map2 | map3 => exact ⟨{ h.1 with }, { h.2 with }⟩
  case unpackp | unpackn | emit | kern3 => exact { (h : WrittenSoFar _ _ u) with }

/-- The final state of the frame command `i`, launched in `s`, when its work-items leave the data of `u`; the choice of
the last turn is `u`'s (R113). -/
def finalState (i : Instr) (s u : State) : State :=
  { complete ((frameCmd i).finish (launch i s)) with
    mem := u.mem, wbuf := u.wbuf, statMin := u.statMin, statMax := u.statMax
    gid := BitVec.ofNat 32 s.n, todo := [], pick := u.pick, agenda := [] }

/-- A command under way whose work-items have all completed ends in its final state (R113). -/
theorem Underway.complete_eq_finalState {i : Instr} {s u : State} (h : Underway i s u) (htodo : u.todo = [])
    (hagenda : u.agenda = []) : complete ((frameCmd i).finish u) = finalState i s u := by
  have hgid : u.gid = BitVec.ofNat 32 s.n := by
    rw [← h.count, htodo, List.length_nil, Nat.add_zero, BitVec.ofNat_toNat, BitVec.setWidth_eq]
  have hlaunch := underway_launch i s
  simp only [finalState, frameCmd_finish, complete, setDone, onStatus, hlaunch.regs, hlaunch.cfg, hlaunch.rdata,
    hlaunch.mdata, hlaunch.freeCtr, h.regs, h.cfg, h.rdata, h.mdata, h.freeCtr, h.status, h.smooth, hgid, htodo, hagenda]

/-- Final states with the same data differ at most in the choice of the last turn and in MODE.ENGINE. -/
theorem finalState_withEngine_congr (i : Instr) (s : State) (par par' : Bool) (moves moves' : List Event) {u u' : State}
    (h : SameData u u') :
    { finalState i (s.withEngine par moves) u with pick := 0, regs := s.regs } =
      { finalState i (s.withEngine par' moves') u' with pick := 0, regs := s.regs } := by
  simp only [finalState, launch, frameCmd_setup, frameCmd_finish, h.mem, h.wbuf, h.statMin, h.statMax]
  rfl

/-- A frame command run with the engine `par` ends in the final state of what its work-items have left (R112, R113). -/
theorem Launchable.runs_to_finalState {i : Instr} {s : State} (hl : Launchable i s)
    (hanswers : footprintAnswers i s = true) (hmem : s.mem.wf = true) (hwbuf : sparseRising none s.wbuf = true)
    (par : Bool) {ks : List Nat} (hlen : ks.length = s.n + 1) :
    ∃ u, runsTo (s.n + 2) (s.withEngine par (issueMoves i ks)) (finalState i (s.withEngine par (issueMoves i ks)) u) ∧
      RanSoFar i s u ∧ u.todo = [] := by
  have hl' : Launchable i (s.withEngine par (issueMoves i ks)) := { hl with }
  obtain ⟨u, hrun, hu, hran, htodo, hagenda⟩ := hl'.runs_to_end (s := s.withEngine par (issueMoves i ks)) hanswers
    (P := RanSoFar i (s.withEngine par (issueMoves i ks)))
    (fun _ k l h => { h with data := h.data.with_moves k l })
    (fun _ _ _ hu h hg hbody => h.item hl'.overlap hu hg hbody) hlen (List.append_nil _).symm
    (ranSoFar_launch hl.frame hmem hwbuf)
  rw [hu.complete_eq_finalState htodo hagenda] at hrun
  exact ⟨u, hrun, { hran with data := hran.data.of_withEngine }, htodo⟩

/-- Settles O29: both runs end with all work-items completed, which determines the data. -/
theorem everyOrderGivesTheSameFinalState : Obligations.EveryOrderGivesTheSameFinalState := by
  intro i s par par' ks ks' hl hanswers hmem hwbuf hlen hlen'
  obtain ⟨u, hrun, hran, htodo⟩ := hl.runs_to_finalState hanswers hmem hwbuf par hlen
  obtain ⟨u', hrun', hran', htodo'⟩ := hl.runs_to_finalState hanswers hmem hwbuf par' hlen'
  exact ⟨_, _, hrun, hrun', finalState_withEngine_congr i s par par' _ _ (hran.same hran' htodo htodo')⟩

end Sys2Proof.Machine
end

section
/-! PROOFS. The family of `60_exceptions.md`: the errors a frame command's prologue reports (R111, R195, R197, R198), in
their order (R201), and what takes a latched error away (R202 to R204). -/

namespace Sys2Proof.Machine

/-! ### The requirements of a frame command, written out -/

/-- The commands that read WBUF (R198). -/
theorem needsWbv_iff {i : Instr} :
    needsWbv i = true ↔ i ∈ [Instr.map1, .map2, .map3, .unpackp, .unpackn, .emit] := by
  cases i <;> decide

/-- MAP2 alone reads the statistics (R198). -/
theorem needsStv_iff {i : Instr} : needsStv i = true ↔ i = .map2 := by
  cases i <;> decide

/-- Some pair of `strideNeeds` fails exactly where the table of R111 step 4 says so. -/
theorem stridesOk_eq_false_iff {i : Instr} {s : State} : stridesOk i s = false ↔ strideTooSmall i s := by
  have hfails : stridesOk i s = false ↔ ∃ p ∈ strideNeeds i s, p.1.toNat < p.2 := by simp [stridesOk]
  rw [hfails]
  cases i <;> simp [strideNeeds, strideTooSmall, State.w, State.cw, ceil2]

/-! ### The errors of the prologue -/

section
variable {i : Instr} {s : State} (hi : isFrame i = true) (hidle : s.running = none) (herr : s.status.err = none)
include hi hidle herr

/-- A frame command whose prologue raises an error changes DONE and the code alone (R202). -/
theorem exec_frame_of_prologue_raises {e : ErrorKind}
    (h : prologue i (frameCmd i).setup (setDone false s) = .next (raiseError e (setDone false s))) :
    exec i s = .next { s with status := { s.status with done := false, err := some e } } := by
  rw [exec_frame hi, frameCommand_idle hidle herr, h]
  simp [raiseError, onStatus, hidle, herr]

variable (hready : s.status.ready = true)
include hready

/-- A frame command whose data are missing reports SEQUENCE (R111 step 3, R198). -/
theorem exec_frame_sequence
    (hmissing : needsWbv i = true ∧ s.status.wbv = false ∨ needsStv i = true ∧ s.status.stv = false) :
    exec i s = .next { s with status := { s.status with done := false, err := some .sequence } } := by
  apply exec_frame_of_prologue_raises hi hidle herr
  have hnot : ¬ ((needsWbv i = true → s.status.wbv = true) ∧ (needsStv i = true → s.status.stv = true)) := by
    rintro ⟨hwbv, hstv⟩
    rcases hmissing with ⟨hneeds, hzero⟩ | ⟨hneeds, hzero⟩
    · cases (hwbv hneeds).symm.trans hzero
    · cases (hstv hneeds).symm.trans hzero
  rcases prologue_cases i (frameCmd i).setup (setDone false s) with
    ⟨hzero, -⟩ | ⟨-, -, heq⟩ | ⟨-, hwbv, hstv, -⟩ | ⟨-, hwbv, hstv, -⟩
  · cases hready.symm.trans hzero
  · exact heq
  · exact absurd ⟨hwbv, hstv⟩ hnot
  · exact absurd ⟨hwbv, hstv⟩ hnot

/-- A frame command that has its data but too small a stride reports STRIDE (R111 step 4, R197). -/
theorem exec_frame_stride (hwbv : needsWbv i = true → s.status.wbv = true)
    (hstv : needsStv i = true → s.status.stv = true) (hshort : stridesOk i s = false) :
    exec i s = .next { s with status := { s.status with done := false, err := some .stride } } := by
  apply exec_frame_of_prologue_raises hi hidle herr
  rcases prologue_cases i (frameCmd i).setup (setDone false s) with
    ⟨hzero, -⟩ | ⟨-, ⟨hneeds, hzero⟩ | ⟨hneeds, hzero⟩, -⟩ | ⟨-, -, -, -, heq⟩ | ⟨-, -, -, hlong, -⟩
  · cases hready.symm.trans hzero
  · cases (hwbv hneeds).symm.trans hzero
  · cases (hstv hneeds).symm.trans hzero
  · exact heq
  · cases hshort.symm.trans hlong

end

/-- Settles O12, one lemma for each error, with the requirements of the command written out. -/
theorem prologueReportsErrorsInOrder : Obligations.PrologueReportsErrorsInOrder := by
  intro i s hi hidle herr
  simp only [← needsWbv_iff, ← needsStv_iff, ← stridesOk_eq_false_iff]
  exact ⟨exec_frame_notReady hi hidle herr, exec_frame_sequence hi hidle herr, exec_frame_stride hi hidle herr⟩

/-! ### What takes a latched error away -/

theorem err_of_stripped {s t : State} (h : t.stripped = s.stripped) : t.status.err = s.status.err :=
  congrArg (·.status.err) h

/-- Raising an error leaves a latched one as it is: the first code stays (R202). -/
theorem raiseError_latched {s : State} {e : ErrorKind} (herr : s.status.err = some e) (e' : ErrorKind) :
    (raiseError e' s).status.err = some e := by
  rw [raiseError_status, herr]; rfl

/-- A turn of the engine keeps a latched error, also where it takes the fault path (R193, R202). -/
theorem engineTurn_latched {s : State} {e : ErrorKind} (herr : s.status.err = some e) (i : Instr) :
    (engineTurn i (frameCmd i) s).status.err = some e := by
  rcases engineTurn_cases i (frameCmd i) s with ⟨-, h⟩ | ⟨g, t, -, hbody, h⟩ | ⟨g, -, -, h⟩
  · rw [h, frameCmd_finish]; exact herr
  · rw [h, (frameCmd_body_effect hbody).itemDone_eq]; exact herr
  · rw [h, faultPath, frameCmd_onFault]; exact raiseError_latched herr _

/-- A command word issued with an error latched keeps it, or is that of INIT or RESET (R110 step 2, R203). -/
theorem IssueEffect.err_kept_or_acknowledged {w : Word} {s t : State} {e : ErrorKind} (h : IssueEffect w s t)
    (herr : s.status.err = some e) :
    t.status.err = some e ∨ decode w = .ok .init ∨ decode w = .ok .reset := by
  cases h with
  | ignored => exact .inl herr
  | init hw => exact .inr (.inl hw)
  | reset hw => exact .inr (.inr hw)
  | nop hnone | error _ hnone => cases herr.symm.trans hnone
  | accepted i _ hl => cases herr.symm.trans hl.noErr

/-- Settles O35: of all that a step can do, only the three acknowledgements change a latched code. -/
theorem errorStaysUntilAcknowledged : Obligations.ErrorStaysUntilAcknowledged := by
  intro s t e herr hstep hchanged
  obtain ⟨u, hu, heffect⟩ := step_effect hstep
  rw [← err_of_stripped hu] at herr
  cases heffect with
  | quiet h => exact absurd ((err_of_stripped h).trans herr) hchanged
  | memWrite => exact absurd herr hchanged
  | hardReset hm => exact .inr (.inr ⟨_, hm⟩)
  | statusWrite w hm =>
    refine .inl ⟨w, _, hm, ?_⟩
    by_contra hbit
    rw [writeStatus_eq] at hchanged
    exact hchanged ((if_neg hbit).trans herr)
  | regWrite r w hm hat hidle hstatus => rw [writeReg_eq hstatus] at hchanged; exact absurd herr hchanged
  | turn i => exact absurd (engineTurn_latched herr i) hchanged
  | issue hm hidle hi =>
    have hword := (hi.err_kept_or_acknowledged herr).resolve_left hchanged
    exact .inr (.inl ⟨_, _, hm, (running_of_stripped hu).symm.trans hidle, hword⟩)

end Sys2Proof.Machine
end

section
/-! PROOFS. The family of `70_reset_and_hazards.md`: the hardware reset at any time (R220), and what can end a running
command (R231). -/

namespace Sys2Proof.Machine

/-! ### The hardware reset -/

/-- With the engine idle the hardware reset is that of RESET (R116, R220). -/
theorem hardReset_idle {s : State} (hidle : s.running = none) : hardReset s = resetState s := by
  simp only [hardReset, hidle]

/-- While a command runs, its write footprint becomes unspecified first (R220; log 14). -/
theorem hardReset_running {s : State} {i : Instr} (hrun : s.running = some i) :
    hardReset s = resetState (scrambleFootprint i s) := by
  simp only [hardReset, hrun]

/-- The hardware reset gives the reset values over the state as it was, but for the memory of a running command's write
footprint. -/
theorem exists_hardReset_eq_resetState (s : State) :
    ∃ u : State, hardReset s = resetState u ∧ u.cfg = s.cfg ∧ u.agenda = s.agenda ∧
      (s.running = none → u.mem = s.mem) ∧
      (∀ i, s.running = some i → ∀ a, a ∉ writeFootprint i s → u.mem.read a = s.mem.read a) := by
  rcases hrun : s.running with _ | j
  · exact ⟨s, hardReset_idle hrun, rfl, rfl, fun _ => rfl, fun i hi => by cases hi⟩
  · refine ⟨scrambleFootprint j s, hardReset_running hrun, rfl, rfl, fun hnone => (by cases hnone), ?_⟩
    rintro _ ⟨⟩ a ha
    exact scrambleMem_read_other s.freeCtr (writeFootprint j s) s.mem ha

/-- Settles O11: the move is a reset of all registers over a memory that differs in a running command's write footprint
alone. -/
theorem hardwareResetEndsARunningCommand : Obligations.HardwareResetEndsARunningCommand := by
  intro s rest hagenda
  obtain ⟨u, hreset, hcfg, hmoves, hidle, houtside⟩ := exists_hardReset_eq_resetState { s with agenda := rest }
  have hstep : step s = .next (resetState u) := by rw [step_cons hagenda, agentMove, hreset]
  exact ⟨resetState u, hstep, fun r => readReg_resetState r u, rfl, rfl, rfl, hcfg, hmoves, hidle, houtside⟩

/-! ### What can end a running command -/

/-- Settles O38: of all that a step can do, the issue of a command and a register write that is not dropped find the
engine idle, and what else is neither a turn of the engine nor the hardware reset keeps the running command. -/
theorem noRegisterWriteStopsACommand : Obligations.NoRegisterWriteStopsACommand := by
  intro s t i hrun hstep hended
  obtain ⟨u, hu, heffect⟩ := step_effect hstep
  rw [← running_of_stripped hu] at hrun
  cases heffect with
  | quiet h => exact absurd ((running_of_stripped h).trans hrun) hended
  | memWrite => exact absurd hrun hended
  | statusWrite w => rw [writeStatus_eq] at hended; exact absurd hrun hended
  | regWrite r w hm hat hidle => cases hrun.symm.trans hidle
  | issue hm hidle => cases hrun.symm.trans hidle
  | turn j hm => exact hm.imp_right .inl
  | hardReset hm => exact .inr (.inr ⟨_, hm⟩)

end Sys2Proof.Machine
end

section
/-! PROOFS. What the model does where the spec gives no meaning, and around it: a frame command whose footprints overlap
or lie on a device (R68, R73; logs 10 and 11), a transaction that does not exist at the port (R21; log 13), and the
host's own accesses to frame memory (R76; logs 12 and 15). -/

namespace Sys2Proof.Machine

/-! ### The refusal of a launch -/

/-- A frame command whose prologue finds nothing wrong comes to its acceptance (R111 step 5). -/
theorem exec_frame_accepts {i : Instr} {s : State} (hi : isFrame i = true) (hidle : s.running = none)
    (herr : s.status.err = none) (hready : s.status.ready = true) (hwbv : needsWbv i = true → s.status.wbv = true)
    (hstv : needsStv i = true → s.status.stv = true) (hstrides : ¬ strideTooSmall i s) :
    exec i s = acceptFrame i (frameCmd i).setup (setDone false s) := by
  rw [exec_frame hi, frameCommand_idle hidle herr]
  rcases prologue_cases i (frameCmd i).setup (setDone false s) with
    ⟨hzero, -⟩ | ⟨-, ⟨hneeds, hzero⟩ | ⟨hneeds, hzero⟩, -⟩ | ⟨-, -, -, hshort, -⟩ | ⟨-, -, -, -, heq⟩
  · cases hready.symm.trans hzero
  · cases (hwbv hneeds).symm.trans hzero
  · cases (hstv hneeds).symm.trans hzero
  · exact absurd (stridesOk_eq_false_iff.1 hshort) hstrides
  · exact heq

/-- Settles O14: the launch comes to its acceptance, whose footprints are those of the state before `DONE <- 0`. -/
theorem meaninglessLaunchIsRefused : Obligations.MeaninglessLaunchIsRefused := by
  intro i s hi hidle herr hready hwbv hstv hstrides
  have hoverlaps : noOverlap i (setDone false s) = noOverlap i s := noOverlap_congr rfl i
  have hplains : plainFootprint i (setDone false s) = plainFootprint i s := plainFootprint_congr rfl rfl i
  rw [exec_frame_accepts hi hidle herr hready hwbv hstv hstrides, acceptFrame, hoverlaps, hplains]
  refine ⟨fun hoverlap => if_pos hoverlap, fun hoverlap hplain => ?device⟩
  case device => rw [hoverlap, hplain]; rfl

/-! ### The transactions that do not exist at the port -/

/-- An offset that is no multiple of 4 does not exist (R21). -/
theorem offsetWf_eq_false_iff {off : BitVec 8} : offsetWf off = false ↔ off.toNat % 4 ≠ 0 := by
  simp [offsetWf]

/-- Settles O57: both transactions ask for an offset that exists. -/
theorem portTransactionsAreWholeWords : Obligations.PortTransactionsAreWholeWords := by
  intro s off w rest
  refine ⟨fun hoff htransaction => ?misaligned, fun hoff hagenda => step_regRead hagenda hoff⟩
  case misaligned =>
    have hnot : offsetWf off = false := offsetWf_eq_false_iff.2 hoff
    rcases htransaction with hwrite | hread
    · rw [step_cons hwrite, agentMove, hnot]; rfl
    · rw [step_cons hread, agentMove, hnot]; rfl

/-! ### The host's own accesses to frame memory -/

/-- Between commands a host write reaches frame memory at every address, whatever `MemFault` says of it (log 15). -/
theorem hostMemWrite_idle {a : Word} {v : Byte} {s : State} (hidle : s.running = none) :
    hostMemWrite a v s = .next { s with mem := s.mem.write a.toNat v } := by
  simp [hostMemWrite, hidle]

/-- Between commands a host read returns the byte at every address, whatever `MemFault` says of it (log 15). -/
theorem hostMemRead_idle {a : Word} {s : State} (hidle : s.running = none) :
    hostMemRead a s = .next { s with mdata := some (s.mem.read a.toNat) } := by
  simp [hostMemRead, hidle]

/-- The running command's footprints are not the host's to write (R76, U11; log 12). -/
theorem hostMemWrite_footprint {a : Word} {v : Byte} {s : State} {i : Instr} (hrun : s.running = some i)
    (ha : a.toNat ∈ readFootprint i s ∨ a.toNat ∈ writeFootprint i s) :
    hostMemWrite a v s = .refused .hostTouchesFootprint := by
  simp [hostMemWrite, hrun, ha]

/-- The running command's write footprint is not the host's to read (R76, U11; log 12). -/
theorem hostMemRead_footprint {a : Word} {s : State} {i : Instr} (hrun : s.running = some i)
    (ha : a.toNat ∈ writeFootprint i s) : hostMemRead a s = .refused .hostTouchesFootprint := by
  simp [hostMemRead, hrun, ha]

/-- What a command reads depends on the registers alone (R72). -/
theorem readFootprint_congr {s u : State} (hregs : u.regs = s.regs) (i : Instr) :
    readFootprint i u = readFootprint i s := by
  rw [readFootprint, readFootprint, readRegions_congr hregs]

/-- Settles O58: a host access looks at the running command alone, and taking the move off the agenda leaves that
command's footprints as they are. -/
theorem hostOwnsMemoryBetweenCommands : Obligations.HostOwnsMemoryBetweenCommands := by
  intro s a v rest
  have hreads (i : Instr) : readFootprint i { s with agenda := rest } = readFootprint i s := readFootprint_congr rfl i
  have hwrites (i : Instr) : writeFootprint i { s with agenda := rest } = writeFootprint i s :=
    writeFootprint_congr rfl i
  refine ⟨fun hidle hagenda => ?write, fun hidle hagenda => ?read, fun i hrun hagenda ha => ?refusedWrite,
    fun i hrun hagenda ha => ?refusedRead⟩
  case write =>
    refine ⟨_, (step_cons hagenda).trans (hostMemWrite_idle hidle), rfl, fun b => ?_⟩
    rw [Memory.read_write]
    exact if_congr eq_comm rfl rfl
  case read => exact (step_cons hagenda).trans (hostMemRead_idle hidle)
  case refusedWrite =>
    refine (step_cons hagenda).trans (hostMemWrite_footprint hrun ?_)
    rwa [hreads, hwrites]
  case refusedRead =>
    refine (step_cons hagenda).trans (hostMemRead_footprint hrun ?_)
    rwa [hwrites]

end Sys2Proof.Machine
end
